-- ==== Sys2Proof/Word.lean ====
section
/-! DEFINITION. The word types of the block. Widths are the spec's: 32-bit command word (R71), 8-bit wire
byte (R8, R56), 16-bit handler token (R9), and 16 bits for a segment code, of which `SEG_W` are used
(R9, R38; assumption 11). One bit is a `Bool`, `true` for 1. -/

namespace Sys2Proof

/-- A host command word, `cmd[31:0]` (R71). -/
abbrev Word := BitVec 32

/-- A wire byte or one cell of the text buffer (R8, R47). -/
abbrev Byte := BitVec 8

/-- A handler token (R14, R31). -/
abbrev Token := BitVec 16

/-- A segment code. With `SEG_BYTES = 1` only bits 7 to 0 are used (R38). -/
abbrev SegCode := BitVec 16

end Sys2Proof
end

