-- ==== Sys2Proof/Syntax.lean ====
section
/-! DEFINITION. The eleven host commands (R73), one constructor per row of the command table, operands in the
order of the assembler syntax (R78). A number operand is an unsigned number taken from its field (R74) and is a
`Nat`; `WellFormed` says that it fits the field. -/

namespace Sys2Proof

inductive Instr where
  /-- `INIT digits, active, intensity` (R102). -/
  | init (digits : Nat) (active : Bool) (intensity : Nat)
  /-- `SETDIGIT position, value, dp` (R105). -/
  | setdigit (position : Nat) (value : Nat) (dp : Bool)
  /-- `LDTXT index, char` (R106). -/
  | ldtxt (index : Nat) (char : Byte)
  /-- `SETSTR start` (R107). -/
  | setstr (start : Nat)
  /-- `SETNUM value, dotMask` (R109). -/
  | setnum (value : Nat) (dotMask : BitVec 6)
  /-- `CLEAR` (R104). -/
  | clear
  /-- `SETBRT active, intensity` (R103). -/
  | setbrt (active : Bool) (intensity : Nat)
  /-- `ONTURN token` (R111). -/
  | onturn (token : Token)
  /-- `ONPRESS token` (R112). -/
  | onpress (token : Token)
  /-- `TRET` (R113). -/
  | tret
  /-- `PRET` (R114). -/
  | pret
  deriving DecidableEq, Repr

/-- The pseudo-command `SETTEXT "c0 c1 ..", start` (R79): one `LDTXT` per character, a terminator when fewer
than 8 characters are given, then `SETSTR`. -/
def Instr.setText (chars : List Byte) (start : Nat) : List Instr :=
  let loads := chars.zipIdx.map (fun p => Instr.ldtxt p.2 p.1)
  let terminator := if chars.length < 8 then [Instr.ldtxt chars.length 0x00#8] else []
  loads ++ terminator ++ [Instr.setstr start]

end Sys2Proof
end

