-- ==== Sys2Proof/WellFormed.lean ====
section
/-! DEFINITION. Which command terms have an encoding: every number operand fits its field (R72, R74). A value
outside the operand's legal range (a digit count of 255) is still well formed: the command's own rule answers it
with a status (R74). -/

namespace Sys2Proof

/-- Fits an 8-bit field. -/
def fitsByte (n : Nat) : Bool := decide (n < 2 ^ 8)

/-- Fits the 20-bit `value` field of format N. -/
def fitsValue (n : Nat) : Bool := decide (n < 2 ^ 20)

/-- Every operand fits the field the encoding gives it. -/
def Instr.wellFormed : Instr → Bool
  | .init digits _ intensity => fitsByte digits && fitsByte intensity
  | .setdigit position value _ => fitsByte position && fitsByte value
  | .ldtxt index _ => fitsByte index
  | .setstr start => fitsByte start
  | .setnum value _ => fitsValue value
  | .clear => true
  | .setbrt _ intensity => fitsByte intensity
  | .onturn _ => true
  | .onpress _ => true
  | .tret => true
  | .pret => true

/-- What may follow `SETTEXT` (R79): at most 8 characters, none of them the terminator, and a start that fits. -/
def setTextWellFormed (chars : List Byte) (start : Nat) : Bool :=
  decide (chars.length ≤ 8) && chars.all (fun c => decide (c ≠ 0x00#8)) && fitsByte start

end Sys2Proof
end

