-- ==== Sys2Proof/Decode.lean ====
section
/-! DEFINITION. Decoding a command word (R71 to R77), total, rejecting by name, and the encoder. Decoding is
written format by format from R72; the match and mask pairs of R73 stand beside it as `opcodeTable` and the two
are compared by an obligation and by tests. -/

namespace Sys2Proof

/-- The slice `v[hi:lo]` as an unsigned number (R11). -/
def slice (v : Word) (hi lo : Nat) : Nat := (v.extractLsb hi lo).toNat

/-- A one-bit number as a level. -/
def bitOf (n : Nat) : Bool := n == 1

/-- A level as a one-bit field. -/
def bitField (b : Bool) : BitVec 1 := if b then 1#1 else 0#1

/-- Why a word selects no command. -/
inductive Illegal where
  /-- Opcode 0x0, 0xC, 0xD, 0xE or 0xF (R75). -/
  | reservedOpcode
  /-- An opcode of the table with a must-be-zero bit set (R76). -/
  | mustBeZero
  deriving DecidableEq, Repr

/-- The command if the must-be-zero slices are zero (R76). -/
def whenZero (mbz : List Nat) (i : Instr) : Except Illegal Instr :=
  if mbz.all (fun n => n == 0) then .ok i else .error .mustBeZero

/-- The decoder: the opcode selects the format, the format's zero columns are tested before any operand is
looked at, then the fields are taken (R72, R74, R76, R77). -/
def decode (w : Word) : Except Illegal Instr :=
  match slice w 31 28 with
  | 0x1 => whenZero [slice w 27 24, slice w 7 1]
      (.init (slice w 23 16) (bitOf (slice w 0 0)) (slice w 15 8))
  | 0x2 => whenZero [slice w 27 24, slice w 7 1]
      (.setdigit (slice w 23 16) (slice w 15 8) (bitOf (slice w 0 0)))
  | 0x3 => whenZero [slice w 27 24, slice w 15 8]
      (.ldtxt (slice w 23 16) (w.extractLsb 7 0))
  | 0x4 => whenZero [slice w 27 24, slice w 15 0]
      (.setstr (slice w 23 16))
  | 0x5 => whenZero [slice w 27 26]
      (.setnum (slice w 19 0) (w.extractLsb 25 20))
  | 0x6 => whenZero [slice w 27 0] .clear
  | 0x7 => whenZero [slice w 27 16, slice w 7 1]
      (.setbrt (bitOf (slice w 0 0)) (slice w 15 8))
  | 0x8 => whenZero [slice w 27 16] (.onturn (w.extractLsb 15 0))
  | 0x9 => whenZero [slice w 27 16] (.onpress (w.extractLsb 15 0))
  | 0xA => whenZero [slice w 27 0] .tret
  | 0xB => whenZero [slice w 27 0] .pret
  | _ => .error .reservedOpcode

/-! ## The encoder, by the columns of R72 -/

/-- Format C: opcode, 0, `digits`, `intensity`, 0, `active`. -/
def formatC (op : BitVec 4) (digits intensity : Byte) (active : Bool) : Word :=
  op ++ 0#4 ++ digits ++ intensity ++ 0#7 ++ bitField active

/-- Format B: opcode, 0, 0, `intensity`, 0, `active`. -/
def formatB (op : BitVec 4) (intensity : Byte) (active : Bool) : Word :=
  op ++ 0#4 ++ 0#8 ++ intensity ++ 0#7 ++ bitField active

/-- Format D: opcode, 0, `position`, `value`, 0, `dp`. -/
def formatD (op : BitVec 4) (position value : Byte) (dp : Bool) : Word :=
  op ++ 0#4 ++ position ++ value ++ 0#7 ++ bitField dp

/-- Format T: opcode, 0, `index`, 0, `char`. -/
def formatT (op : BitVec 4) (index char : Byte) : Word :=
  op ++ 0#4 ++ index ++ 0#8 ++ char

/-- Format S: opcode, 0, `start`, 0. -/
def formatS (op : BitVec 4) (start : Byte) : Word :=
  op ++ 0#4 ++ start ++ 0#16

/-- Format H: opcode, 0, `token`. -/
def formatH (op : BitVec 4) (token : Token) : Word :=
  op ++ 0#12 ++ token

/-- Format N: opcode, 0, `dotMask`, `value`. -/
def formatN (op : BitVec 4) (dotMask : BitVec 6) (value : BitVec 20) : Word :=
  op ++ 0#2 ++ dotMask ++ value

/-- Format Z: opcode, 0. -/
def formatZ (op : BitVec 4) : Word := op ++ 0#28

/-- The word of a command (R72, R73). A number operand that does not fit its field is not well formed; its
low bits are taken. -/
def encode : Instr → Word
  | .init digits active intensity => formatC 0x1#4 (.ofNat 8 digits) (.ofNat 8 intensity) active
  | .setdigit position value dp => formatD 0x2#4 (.ofNat 8 position) (.ofNat 8 value) dp
  | .ldtxt index char => formatT 0x3#4 (.ofNat 8 index) char
  | .setstr start => formatS 0x4#4 (.ofNat 8 start)
  | .setnum value dotMask => formatN 0x5#4 dotMask (.ofNat 20 value)
  | .clear => formatZ 0x6#4
  | .setbrt active intensity => formatB 0x7#4 (.ofNat 8 intensity) active
  | .onturn token => formatH 0x8#4 token
  | .onpress token => formatH 0x9#4 token
  | .tret => formatZ 0xA#4
  | .pret => formatZ 0xB#4

/-! ## The match and mask columns of R73 -/

/-- A row of R73: a word `w` selects the command when `w & mask = match`. -/
structure OpcodeRow where
  mnemonic : String
  matchBits : Word
  maskBits : Word
  deriving DecidableEq, Repr

/-- R73, in its own order. -/
def opcodeTable : List OpcodeRow :=
  [ ⟨"INIT", 0x10000000#32, 0xFF0000FE#32⟩,
    ⟨"SETDIGIT", 0x20000000#32, 0xFF0000FE#32⟩,
    ⟨"LDTXT", 0x30000000#32, 0xFF00FF00#32⟩,
    ⟨"SETSTR", 0x40000000#32, 0xFF00FFFF#32⟩,
    ⟨"SETNUM", 0x50000000#32, 0xFC000000#32⟩,
    ⟨"CLEAR", 0x60000000#32, 0xFFFFFFFF#32⟩,
    ⟨"SETBRT", 0x70000000#32, 0xFFFF00FE#32⟩,
    ⟨"ONTURN", 0x80000000#32, 0xFFFF0000#32⟩,
    ⟨"ONPRESS", 0x90000000#32, 0xFFFF0000#32⟩,
    ⟨"TRET", 0xA0000000#32, 0xFFFFFFFF#32⟩,
    ⟨"PRET", 0xB0000000#32, 0xFFFFFFFF#32⟩ ]

/-- `w & mask = match`. -/
def OpcodeRow.selects (r : OpcodeRow) (w : Word) : Bool := decide (w &&& r.maskBits = r.matchBits)

/-- The mnemonic of a command (R73). -/
def Instr.mnemonic : Instr → String
  | .init _ _ _ => "INIT"
  | .setdigit _ _ _ => "SETDIGIT"
  | .ldtxt _ _ => "LDTXT"
  | .setstr _ => "SETSTR"
  | .setnum _ _ => "SETNUM"
  | .clear => "CLEAR"
  | .setbrt _ _ => "SETBRT"
  | .onturn _ => "ONTURN"
  | .onpress _ => "ONPRESS"
  | .tret => "TRET"
  | .pret => "PRET"

/-! ## The host's entry -/

/-- The command word made of `nbits` bits of `w`; the bits above are 0. The port takes the word whole, so there
is no byte order to apply (R59). -/
def tableWord (nbits w : Nat) : Word := BitVec.ofNat 32 (w % 2 ^ nbits)

/-- What the decoder reads from an opcode-table word. -/
def decodeTableWord (nbits w : Nat) : Option Instr :=
  match decode (tableWord nbits w) with
  | .ok i => some i
  | .error _ => none

end Sys2Proof
end

