-- ==== Sys2Proof/Config.lean ====
section
/-! DEFINITION. The implementation parameters of R9, the constraints of R10 on them, and the reference
configuration `CFG_REF`. A configuration is plain data: the two functions `modeByte` and `ctrlByte` of R9 are
tables over their finite domains. The fixed constants of R8 and R9 stand here too. The last section holds the
free values. -/

namespace Sys2Proof

/-- `MAX_DIGITS` (R8). -/
abbrev maxDigits : Nat := 6

/-- `MAX_INTENSITY` (R8). -/
abbrev maxIntensity : Nat := 7

/-- `TEXT_LEN` (R9): cells of the text buffer. -/
abbrev textLen : Nat := 8

/-- `SEG_BYTES` (R9): data bytes per display position, 1 or 2. -/
inductive SegBytes where
  | one
  | two
  deriving DecidableEq, Repr

/-- `SEG_BYTES` as a number. -/
def SegBytes.count : SegBytes → Nat
  | .one => 1
  | .two => 2

/-- The parameters of R9. -/
structure Config where
  /-- `SEG_BYTES`. -/
  segBytes : SegBytes
  /-- `DP_BIT`: the bit of the segment code that is the decimal point. -/
  dpBit : Nat
  /-- `HEX_FONT[0..15]` (R38). -/
  hexFont : Vector SegCode 16
  /-- `CHAR_FONT` (R39): the mapped characters with their codes; every other character is unmapped. -/
  charFont : List (Byte × SegCode)
  /-- `modeByte(d)` for `d` = 1 .. 6, at index `d - 1` (R81). -/
  modeBytes : Vector Byte 6
  /-- `CMD_DATA_AUTOINC` (R82). -/
  cmdDataAutoinc : Byte
  /-- `CMD_DATA_FIXED` (R83). -/
  cmdDataFixed : Byte
  /-- `ADDR_BASE` (R84). -/
  addrBase : Byte
  /-- `ctrlByte(0, intensity)` for intensity 0 .. 7 (R86). -/
  ctrlOff : Vector Byte 8
  /-- `ctrlByte(1, intensity)` for intensity 0 .. 7 (R86). -/
  ctrlOn : Vector Byte 8
  /-- `SPLIT_CMD_FRAME` (R94). -/
  splitCmdFrame : Bool
  /-- `THRESHOLD` (R30). -/
  threshold : Nat
  /-- `CNT_W`: width of `pendingClicks` (R29). -/
  cntW : Nat
  /-- `SETTLE_TICKS` (R89). -/
  settleTicks : Nat
  /-- `SYNC_STAGES` (R130). -/
  syncStages : Nat
  deriving DecidableEq, Repr

/-- `SEG_W` (R9): width of a segment code in bits. -/
def Config.segW (c : Config) : Nat := 8 * c.segBytes.count

/-- A font entry is a code of `SEG_W` bits whose bit `DP_BIT` is 0 (R38, R39). -/
def Config.fontEntryOk (c : Config) (code : SegCode) : Bool :=
  decide (code.toNat < 2 ^ c.segW) && !code.getLsbD c.dpBit

/-- What a configuration must meet for the rules to hold: R10, the ranges of R9, and what R38 and R39 say of
the two fonts (`CNT_W` is `ceil(log2(THRESHOLD + 2))`; the character 0x00 is never mapped; assumption 22). -/
def Config.wf (c : Config) : Bool :=
  decide (c.addrBase &&& 0x0F#8 = 0#8)
  && decide (c.cmdDataAutoinc ≠ c.cmdDataFixed)
  && decide (c.dpBit < c.segW)
  && decide (c.threshold + 1 < 2 ^ c.cntW)
  && decide (1 ≤ c.cntW ∧ 2 ^ (c.cntW - 1) < c.threshold + 2)
  && decide (1 ≤ c.settleTicks)
  && c.hexFont.toList.all c.fontEntryOk
  && c.charFont.all (fun e => c.fontEntryOk e.2 && decide (e.1 ≠ 0#8))
  && decide (c.charFont.map Prod.fst).Nodup

/-- `HEX_FONT` of `CFG_REF` (R38). -/
def Config.refHexFont : Vector SegCode 16 :=
  #v[0x3F#16, 0x06#16, 0x5B#16, 0x4F#16, 0x66#16, 0x6D#16, 0x7D#16, 0x07#16,
     0x7F#16, 0x6F#16, 0x77#16, 0x7C#16, 0x39#16, 0x5E#16, 0x79#16, 0x71#16]

/-- `CHAR_FONT` of `CFG_REF` (R39): space, `-`, `_`; the digits; A to F, R, O in both cases. -/
def Config.refCharFont : List (Byte × SegCode) :=
  [(0x20#8, 0x00#16), (0x2D#8, 0x40#16), (0x5F#8, 0x08#16)]
  ++ [(0x30#8, 0x3F#16), (0x31#8, 0x06#16), (0x32#8, 0x5B#16), (0x33#8, 0x4F#16), (0x34#8, 0x66#16),
      (0x35#8, 0x6D#16), (0x36#8, 0x7D#16), (0x37#8, 0x07#16), (0x38#8, 0x7F#16), (0x39#8, 0x6F#16)]
  ++ [(0x41#8, 0x77#16), (0x42#8, 0x7C#16), (0x43#8, 0x39#16), (0x44#8, 0x5E#16), (0x45#8, 0x79#16),
      (0x46#8, 0x71#16), (0x52#8, 0x50#16), (0x4F#8, 0x5C#16)]
  ++ [(0x61#8, 0x77#16), (0x62#8, 0x7C#16), (0x63#8, 0x39#16), (0x64#8, 0x5E#16), (0x65#8, 0x79#16),
      (0x66#8, 0x71#16), (0x72#8, 0x50#16), (0x6F#8, 0x5C#16)]

/-- The reference configuration `CFG_REF` (R9). -/
def Config.ref : Config where
  segBytes := .one
  dpBit := 7
  hexFont := Config.refHexFont
  charFont := Config.refCharFont
  modeBytes := #v[0x00#8, 0x01#8, 0x02#8, 0x03#8, 0x04#8, 0x05#8]
  cmdDataAutoinc := 0x40#8
  cmdDataFixed := 0x44#8
  addrBase := 0xC0#8
  ctrlOff := #v[0x80#8, 0x81#8, 0x82#8, 0x83#8, 0x84#8, 0x85#8, 0x86#8, 0x87#8]
  ctrlOn := #v[0x88#8, 0x89#8, 0x8A#8, 0x8B#8, 0x8C#8, 0x8D#8, 0x8E#8, 0x8F#8]
  splitCmdFrame := false
  threshold := 2
  cntW := 2
  settleTicks := 1
  syncStages := 2

/-! ## Free values (assumption 6)

What a payload port carries while its valid port is 0: the spec gives it no meaning (R18). Each is applied to
the counter `State.freeCount`, so every cycle has a fresh value. -/

/-- `rsp_status` in a cycle with `rsp_valid = 0`. -/
opaque Config.idleRspStatus : Nat → BitVec 3

/-- `turn_dir` in a cycle with `turn_valid = 0`. -/
opaque Config.idleTurnDir : Nat → Bool

/-- `turn_token` in a cycle with `turn_valid = 0`. -/
opaque Config.idleTurnToken : Nat → Token

/-- `press_token` in a cycle with `press_valid = 0`. -/
opaque Config.idlePressToken : Nat → Token

end Sys2Proof
end

