-- ==== Sys2Proof/Machine/State.lean ====
section
/-! DEFINITION. The state of the block as plain data: the registers of `DRV` and `DEC` (file `10_state.md`), the
output registers behind the ports (R18), the ghost state (R42, R43), and, because the step is a function of the
state alone, the configuration (R46; assumption 1) and what the outside world puts on the input ports (R17;
assumption 3). Then the reset values of R45. -/

namespace Sys2Proof.Machine

/-- The three lines of the display bus (R8, R27). -/
inductive Line where
  | stb
  | clk
  | dio
  deriving DecidableEq, Repr

/-- `DRV.addrMode` (R23): which data-setting byte was sent last. -/
inductive AddrMode where
  | none
  | autoinc
  | fixed
  deriving DecidableEq, Repr

/-- The statuses a command can end with (R149). -/
inductive Status where
  | ok
  | configurationError
  | invalidArgument
  | displayRangeError
  | illegalCommand
  deriving DecidableEq, Repr

/-- One line write still to be performed (R26). `marks` is ghost: the positions whose exchange this line write
ends, with the code sent (R43); it is not empty only on the last line write of an exchange. -/
structure SeqWrite where
  line : Line
  level : Bool
  marks : List (Nat × SegCode)
  deriving DecidableEq, Repr

/-- The Serial Display Driver. -/
structure Drv where
  /-- R19. -/
  configured : Bool
  /-- R20. -/
  digitCount : BitVec 3
  /-- R21. -/
  active : Bool
  /-- R22. -/
  intensity : BitVec 3
  /-- R23. -/
  addrMode : AddrMode
  /-- `TEXT[0..7]` (R24): the cells that hold something other than 0x00, addresses rising. -/
  text : List Host.Cell
  /-- R25. -/
  busy : Bool
  /-- R26: the line writes still to be performed. -/
  seq : List SeqWrite
  /-- R26: the status to respond with when `seq` is empty. -/
  seqStatus : Status
  /-- The settle counter (R89, R171): cycles of the settle delay still to pass; 0 is idle. -/
  settle : Nat
  /-- Ghost: the marks of the line write whose settle delay is running; `shadow` takes them when the delay has
  passed and with it the exchange (R93 to R96, R100; assumption 9). -/
  settling : List (Nat × SegCode)
  /-- `STB` (R27). -/
  stb : Bool
  /-- `CLK` (R27). -/
  clk : Bool
  /-- `DIO` (R27). -/
  dio : Bool
  /-- Output `rsp_valid` (R18). -/
  rspValid : Bool
  /-- Output `rsp_status` (R18). -/
  rspStatus : BitVec 3
  /-- Ghost `wire` (R42), oldest first. -/
  wire : List (Line × Bool)
  /-- Ghost `shadow[0..5]` (R43); `none` is `unknown`. -/
  shadow : Vector (Option SegCode) 6
  deriving DecidableEq, Repr

/-- The Debounced Rotary Decoder. -/
structure Dec where
  /-- R28. -/
  lastLevel : Bool
  /-- R29; `CNT_W` bits suffice (assumption 10). -/
  pendingClicks : Nat
  /-- R31. -/
  turnBound : Bool
  /-- R31. -/
  turnToken : Token
  /-- R32. -/
  pressBound : Bool
  /-- R32. -/
  pressToken : Token
  /-- R33. -/
  turnActive : Bool
  /-- R34. -/
  pressActive : Bool
  /-- R35. -/
  aPend : Bool
  /-- R36. -/
  swPend : Bool
  /-- R37. -/
  aPrev : Bool
  /-- R37. -/
  swPrev : Bool
  /-- Synchroniser of `enc_a` (R37, R130), the flop nearest the pin first. -/
  aSync : List Bool
  /-- Synchroniser of `enc_b`. -/
  bSync : List Bool
  /-- Synchroniser of `enc_sw`. -/
  swSync : List Bool
  /-- Output `turn_valid` (R18). -/
  turnValid : Bool
  /-- Output `turn_dir` (R18): `false` is Left, `true` is Right. -/
  turnDir : Bool
  /-- Output `turn_token` (R18). -/
  turnTokenOut : Token
  /-- Output `press_valid` (R18). -/
  pressValid : Bool
  /-- Output `press_token` (R18). -/
  pressTokenOut : Token
  deriving DecidableEq, Repr

/-- The input ports in one clock cycle (R17). `hold` is the model's own: the implementation takes a cycle
longer than the lower bounds of R193 and R194 ask (assumption 7). -/
structure Inputs where
  rst : Bool
  cmdValid : Bool
  cmd : Word
  encA : Bool
  encB : Bool
  encSw : Bool
  hold : Bool
  deriving DecidableEq, Repr

/-- The block, its configuration, and what stands on its input ports. -/
structure State where
  /-- The configuration (R9, R46). No step writes it. -/
  cfg : Config
  drv : Drv
  dec : Dec
  /-- The input ports in the current clock cycle. -/
  inp : Inputs
  /-- The input ports in the clock cycles after this one, the next first. When the list is empty the outside
  world rests (`Inputs.rest`). -/
  inputs : List Inputs
  /-- Counts clock edges: the argument of the free values (assumption 6). -/
  freeCount : Nat
  deriving DecidableEq, Repr

/-- Why the machine stops. -/
inductive Fault where
  /-- Raised by `step` alone, in a configuration that breaks a constraint of R10: the spec gives the block no
  behaviour there. Safe. -/
  | badConfiguration
  deriving DecidableEq, Repr

/-- Why an instruction is refused. -/
inductive Refusal where
  /-- Raised by an arm of `exec` that has no meaning yet: none is left. Safe. -/
  | notModelled (mnemonic : String)
  deriving DecidableEq, Repr

/-! ## Reset values (R45) -/

/-- `DRV` after reset. `seqStatus` is the model's choice (assumption 12). -/
def Drv.reset : Drv where
  configured := false
  digitCount := 0#3
  active := false
  intensity := 0#3
  addrMode := .none
  text := []
  busy := false
  seq := []
  seqStatus := .ok
  settle := 0
  settling := []
  stb := true
  clk := true
  dio := false
  rspValid := false
  rspStatus := 0#3
  wire := []
  shadow := Vector.replicate 6 none

/-- `DEC` after reset, with `SYNC_STAGES` flops on each input. -/
def Dec.reset (stages : Nat) : Dec where
  lastLevel := false
  pendingClicks := 0
  turnBound := false
  turnToken := 0x0000#16
  pressBound := false
  pressToken := 0x0000#16
  turnActive := false
  pressActive := false
  aPend := false
  swPend := false
  aPrev := false
  swPrev := false
  aSync := List.replicate stages false
  bSync := List.replicate stages false
  swSync := List.replicate stages false
  turnValid := false
  turnDir := false
  turnTokenOut := 0x0000#16
  pressValid := false
  pressTokenOut := 0x0000#16

/-- Nothing on the input ports (assumption 4). -/
def Inputs.quiet : Inputs := ⟨false, false, 0x00000000#32, false, false, false, false⟩

/-- The block after reset in the configuration `cfg`. -/
def State.resetIn (cfg : Config) : State where
  cfg := cfg
  drv := Drv.reset
  dec := Dec.reset cfg.syncStages
  inp := Inputs.quiet
  inputs := []
  freeCount := 0

/-- The block after reset, in `CFG_REF` (assumption 2). -/
def State.reset : State := State.resetIn Config.ref

end Sys2Proof.Machine
end

