-- ==== Sys2Proof/Machine/Ops.lean ====
section
/-! DEFINITION. The shared operations: the text buffer (R48), line writes and the list of pending ones (R26,
R88), `respond` and `raise` (R12, R148), and the delivery of an event with the return from it (R117, R121, R163,
R165). The last two take the place of taking an exception and returning from one (file `60_exceptions.md`):
nothing is saved, no mode changes, no control is transferred inside the block. -/

namespace Sys2Proof.Machine

/-! ## The text buffer -/

/-- What a cell that is not listed holds: the reset value of `TEXT` (R24). -/
def textDefault : Byte := 0x00#8

/-- The byte at an address. -/
def textRead : List Host.Cell → Nat → Byte
  | [], _ => textDefault
  | (b, x) :: rest, a => if a = b then x else textRead rest a

/-- Puts `v` at address `a`, keeping the form of `textWf`. -/
def textWrite : List Host.Cell → Nat → Byte → List Host.Cell
  | [], a, v => if v = textDefault then [] else [(a, v)]
  | (b, x) :: rest, a, v =>
    if a < b then (if v = textDefault then (b, x) :: rest else (a, v) :: (b, x) :: rest)
    else if a = b then (if v = textDefault then rest else (a, v) :: rest)
    else (b, x) :: textWrite rest a v

/-- Addresses strictly rising, all at least `lo` and below `textLen`, no cell equal to what an unlisted address
reads as. -/
def textWfFrom : Nat → List Host.Cell → Bool
  | _, [] => true
  | lo, (a, v) :: rest =>
    decide (lo ≤ a) && decide (a < textLen) && decide (v ≠ textDefault) && textWfFrom (a + 1) rest

/-- The one canonical form of a text buffer. -/
def textWf (m : List Host.Cell) : Bool := textWfFrom 0 m

/-- `MemRead(TEXT, i)` for `i` in 0 .. 7 (R48). -/
def Drv.memRead (d : Drv) (i : Fin textLen) : Byte := textRead d.text i.val

/-- `MemWrite(TEXT, i, v)` for `i` in 0 .. 7 (R48). -/
def Drv.memWrite (i : Fin textLen) (v : Byte) (d : Drv) : Drv :=
  { d with text := textWrite d.text i.val v }

/-! ## Line writes -/

/-- The level of an output register. -/
def Drv.level (d : Drv) : Line → Bool
  | .stb => d.stb
  | .clk => d.clk
  | .dio => d.dio

/-- `LineWrite(L, b)` (R88): the register takes the level and the pair is appended to `wire`, whether or not
the level changes. -/
def Drv.lineWrite (l : Line) (b : Bool) (d : Drv) : Drv :=
  match l with
  | .stb => { d with stb := b, wire := d.wire ++ [(.stb, b)] }
  | .clk => { d with clk := b, wire := d.wire ++ [(.clk, b)] }
  | .dio => { d with dio := b, wire := d.wire ++ [(.dio, b)] }

/-- Ghost `shadow[p] <- s` for each mark (R95, R96). -/
def markShadow (shadow : Vector (Option SegCode) 6) (marks : List (Nat × SegCode)) :
    Vector (Option SegCode) 6 :=
  marks.foldl (fun v m => v.setIfInBounds m.1 (some m.2)) shadow

/-- The settle delay of the line write performed last has passed: if that line write was the last of an exchange,
the exchange has finished and `shadow` takes its codes (R93 to R96, R100). -/
def Drv.finishExchange (d : Drv) : Drv :=
  { d with shadow := markShadow d.shadow d.settling, settling := [] }

/-- Performs one pending line write, the settle delay of the one before having passed; its own marks wait for its
own settle delay. -/
def Drv.perform (w : SeqWrite) (d : Drv) : Drv :=
  { d.finishExchange.lineWrite w.line w.level with settling := w.marks }

/-- Places line writes behind those that are pending (R100). -/
def Drv.enqueue (ws : List SeqWrite) (d : Drv) : Drv := { d with seq := d.seq ++ ws }

/-- Performs every pending line write, in order, each with its settle delay: what the sequencer has done when it
responds. -/
def Drv.drain (d : Drv) : Drv :=
  Drv.finishExchange (d.seq.foldl (fun d w => d.perform w) { d with seq := [] })

/-- A pending line write as an entry of `wire`. -/
def SeqWrite.entry (w : SeqWrite) : Line × Bool := (w.line, w.level)

/-! ## Ending a command -/

/-- `respond(s)` (R148): the status stands behind the pending line writes, and the command is in progress until
the response is pulsed (R25, R26). -/
def Drv.respond (st : Status) (d : Drv) : Drv := { d with busy := true, seqStatus := st }

/-- `raise E` (R12): no change but those the rule lists, no line write, `respond(E)`. -/
def Drv.raise (st : Status) (d : Drv) : Drv := d.respond st

/-! ## Events -/

/-- `emit Turn(dir, token)` (R117): the pulse with its payload, and the source is masked. -/
def Dec.emitTurn (dir : Bool) (token : Token) (d : Dec) : Dec :=
  { d with turnValid := true, turnDir := dir, turnTokenOut := token, turnActive := true }

/-- `emit Press(token)` (R121). -/
def Dec.emitPress (token : Token) (d : Dec) : Dec :=
  { d with pressValid := true, pressTokenOut := token, pressActive := true }

/-- Return from the turn handler (R113, R165): it unmasks the source and restores nothing else. -/
def Dec.returnTurn (d : Dec) : Dec := { d with turnActive := false }

/-- Return from the press handler (R114, R165). -/
def Dec.returnPress (d : Dec) : Dec := { d with pressActive := false }

/-- `ONTURN`'s binding (R111). -/
def Dec.bindTurn (token : Token) (d : Dec) : Dec := { d with turnBound := true, turnToken := token }

/-- `ONPRESS`'s binding (R112). -/
def Dec.bindPress (token : Token) (d : Dec) : Dec := { d with pressBound := true, pressToken := token }

/-! ## Lifting to the block -/

/-- The block with its driver changed. -/
def State.withDrv (s : State) (d : Drv) : State := { s with drv := d }

/-- The block with its decoder changed. -/
def State.withDec (s : State) (d : Dec) : State := { s with dec := d }

end Sys2Proof.Machine
end

