-- ==== Sys2Proof/Machine/Decoder.lean ====
section
/-! DEFINITION. The rotary decoder (file `42_decoder.md`): the meanings of its four commands, the event-level
steps (R115 to R124), and the two channels at clock-cycle level (R130 to R132). -/

namespace Sys2Proof.Machine

/-! ## Commands -/

/-- `ONTURN token` (R111). -/
def execOnturn (token : Token) (s : State) : Host.Outcome State Fault Refusal :=
  .next ((s.withDec (s.dec.bindTurn token)).withDrv (s.drv.respond .ok))

/-- `ONPRESS token` (R112). -/
def execOnpress (token : Token) (s : State) : Host.Outcome State Fault Refusal :=
  .next ((s.withDec (s.dec.bindPress token)).withDrv (s.drv.respond .ok))

/-- `TRET` (R113). -/
def execTret (s : State) : Host.Outcome State Fault Refusal :=
  .next ((s.withDec s.dec.returnTurn).withDrv (s.drv.respond .ok))

/-- `PRET` (R114). -/
def execPret (s : State) : Host.Outcome State Fault Refusal :=
  .next ((s.withDec s.dec.returnPress).withDrv (s.drv.respond .ok))

/-! ## Event level -/

/-- `TurnStep(level)` (R116), with the token an emission carries. -/
def Dec.turnStep (threshold : Nat) (token : Token) (level : Bool) (d : Dec) : Dec :=
  let counted : Dec :=
    if level = d.lastLevel then
      if d.pendingClicks + 1 > threshold then
        ({ d with pendingClicks := 0 } : Dec).emitTurn level token
      else { d with pendingClicks := d.pendingClicks + 1 }
    else { d with pendingClicks := 0 }
  { counted with lastLevel := level }

/-- Event `FallA` with the secondary channel at `level` (R115, R118, R124). -/
def Dec.fallA (threshold : Nat) (level : Bool) (d : Dec) : Dec :=
  if !d.turnBound then d
  else if d.turnActive then { d with aPend := true }
  else d.turnStep threshold d.turnToken level

/-- Event `ServeA` with the secondary channel at `level`; nothing when it is not enabled (R119). -/
def Dec.serveA (threshold : Nat) (level : Bool) (d : Dec) : Dec :=
  if d.aPend && !d.turnActive then
    ({ d with aPend := false } : Dec).turnStep threshold d.turnToken level
  else d

/-- Event `FallSW` (R120, R122, R124). -/
def Dec.fallSW (d : Dec) : Dec :=
  if !d.pressBound then d
  else if d.pressActive then { d with swPend := true }
  else d.emitPress d.pressToken

/-- Event `ServeSW`; nothing when it is not enabled (R123). -/
def Dec.serveSW (d : Dec) : Dec :=
  if d.swPend && !d.pressActive then ({ d with swPend := false } : Dec).emitPress d.pressToken
  else d

/-! ## Cycle level -/

/-- What a synchroniser shows in this cycle: its last flop, or the pin itself when it has none (R130). -/
def syncOut (pin : Bool) (flops : List Bool) : Bool := flops.getLastD pin

/-- A synchroniser after the clock edge (R130). -/
def syncShift (pin : Bool) (flops : List Bool) : List Bool := (pin :: flops).dropLast

/-- What a channel reads at the clock edge, before any write of that edge (R131, R132): the synchronised
levels and the binding as it stood before a command accepted in the same cycle. -/
structure Sampled where
  aNow : Bool
  bNow : Bool
  swNow : Bool
  turnBound : Bool
  turnToken : Token
  pressBound : Bool
  pressToken : Token
  deriving DecidableEq, Repr

/-- The reads of the clock edge that ends the cycle of `s`. -/
def State.sampled (s : State) : Sampled where
  aNow := syncOut s.inp.encA s.dec.aSync
  bNow := syncOut s.inp.encB s.dec.bSync
  swNow := syncOut s.inp.encSw s.dec.swSync
  turnBound := s.dec.turnBound
  turnToken := s.dec.turnToken
  pressBound := s.dec.pressBound
  pressToken := s.dec.pressToken

/-- The turn channel at a clock edge (R131). `d` is the decoder with the command accepted in this cycle already
applied, so `d.turnActive` is the rule's `active'`. -/
def Dec.turnChannel (threshold : Nat) (r : Sampled) (d : Dec) : Dec :=
  let aFall := r.turnBound && d.aPrev && !r.aNow
  let served : Dec :=
    if (d.aPend || aFall) && !d.turnActive then
      ({ d with aPend := false } : Dec).turnStep threshold r.turnToken r.bNow
    else { d with aPend := d.aPend || aFall }
  { served with aPrev := r.aNow }

/-- The button channel at a clock edge (R132). `d.pressActive` is the rule's `active'`. -/
def Dec.pressChannel (r : Sampled) (d : Dec) : Dec :=
  let swFall := r.pressBound && d.swPrev && !r.swNow
  let served : Dec :=
    if (d.swPend || swFall) && !d.pressActive then
      ({ d with swPend := false } : Dec).emitPress r.pressToken
    else { d with swPend := d.swPend || swFall }
  { served with swPrev := r.swNow }

/-- The synchronisers at a clock edge (R130). -/
def Dec.shiftSync (inp : Inputs) (d : Dec) : Dec :=
  { d with
    aSync := syncShift inp.encA d.aSync
    bSync := syncShift inp.encB d.bSync
    swSync := syncShift inp.encSw d.swSync }

/-- The event pulses last one cycle (R117, R121): they fall, and their payloads are free (assumption 6). -/
def Dec.endPulses (k : Nat) (d : Dec) : Dec :=
  { d with
    turnValid := false
    turnDir := Config.idleTurnDir k
    turnTokenOut := Config.idleTurnToken k
    pressValid := false
    pressTokenOut := Config.idlePressToken k }

end Sys2Proof.Machine
end

