-- ==== Sys2Proof/Machine/Flags.lean ====
section
/-! DEFINITION. The status side of the commands (R44, R148 to R155): the status codes, the configured gate and
the order of the checks. The block has no arithmetic condition codes (R44). -/

namespace Sys2Proof.Machine

/-- The code on `rsp_status[2:0]` (R149). -/
def Status.code : Status → BitVec 3
  | .ok => 0#3
  | .configurationError => 1#3
  | .invalidArgument => 2#3
  | .displayRangeError => 3#3
  | .illegalCommand => 4#3

/-- The configured gate (R101 (2)): with `configured = 0` the command raises `ConfigurationError`. -/
def Drv.gated (d : Drv) (body : Drv) : Drv :=
  if d.configured then body else d.raise .configurationError

/-- An argument check (R101 (3)): out of contract raises `InvalidArgument` (R151). -/
def Drv.unlessInvalid (d : Drv) (invalid : Bool) (body : Drv) : Drv :=
  if invalid then d.raise .invalidArgument else body

/-- `INIT`'s failure clears `configured` (R102, R150); nothing else of the configuration changes. -/
def Drv.lockOut (d : Drv) : Drv := { d with configured := false }

end Sys2Proof.Machine
end

