-- ==== Sys2Proof/Machine/Operands.lean ====
section
/-! DEFINITION. The operands of the display commands: the bytes and codes the configuration's tables give
(R49, R81, R86), the decimal-point merge (R85), the decimal digits of `SETNUM` (R109, R110) and the characters
of `SETSTR` (R107). -/

namespace Sys2Proof.Machine

/-- `FontHex(v)` (R49): `v` in 0 .. 15 by its type. -/
def fontHex (cfg : Config) (v : Fin 16) : SegCode := cfg.hexFont[v]

/-- `FontChar(c)` (R49): `none` for an unmapped character. -/
def fontChar (cfg : Config) (c : Byte) : Option SegCode := cfg.charFont.lookup c

/-- `modeByte(d)` for `d` = 1 .. 6, given as `d - 1` (R81). -/
def modeByte (cfg : Config) (dMinusOne : Fin 6) : Byte := cfg.modeBytes[dMinusOne]

/-- `ctrlByte(active, intensity)` (R86). -/
def ctrlByte (cfg : Config) (active : Bool) (intensity : BitVec 3) : Byte :=
  if active then cfg.ctrlOn[intensity.toFin] else cfg.ctrlOff[intensity.toFin]

/-- `code | (dp << DP_BIT)` (R85). -/
def withDp (cfg : Config) (code : SegCode) (dp : Bool) : SegCode :=
  code ||| (if dp then 1#16 <<< cfg.dpBit else 0#16)

/-- The digit `v mod 10` as an index of `HEX_FONT`. -/
def decimalDigit (v : Nat) : Fin 16 := ⟨v % 10, by omega⟩

/-- The loop of `SETNUM` over the positions still to write, the highest of which is next (R109): `first` says
that it is the ones position, `v` is the remaining quotient. -/
def renderNumber (cfg : Config) (dotMask : BitVec 6) : Nat → Bool → Nat → List (Nat × SegCode)
  | 0, _, _ => []
  | p + 1, first, v =>
    let code := if first || decide (v > 0) then fontHex cfg (decimalDigit v) else 0#16
    (p, withDp cfg code (dotMask.getLsbD p)) :: renderNumber cfg dotMask p false (v / 10)

/-- The first loop of `SETSTR` (R107), with `room` display positions left and text index `n`: the codes to
write, or `none` when a character to be written is unmapped. -/
def scanText (cfg : Config) (d : Drv) : Nat → Nat → Option (List SegCode)
  | 0, _ => some []
  | room + 1, n =>
    if h : n < textLen then
      if d.memRead ⟨n, h⟩ = 0x00#8 then some []
      else
        match fontChar cfg (d.memRead ⟨n, h⟩) with
        | none => none
        | some c => (scanText cfg d room (n + 1)).map (fun codes => c :: codes)
    else some []

/-- Codes at consecutive positions from `start` (R107). -/
def cellsFrom (start : Nat) (codes : List SegCode) : List (Nat × SegCode) :=
  codes.zipIdx.map (fun c => (start + c.2, c.1))

end Sys2Proof.Machine
end

