-- ==== Sys2Proof/Machine/Wire.lean ====
section
/-! DEFINITION. The serial protocol (file `40_serial_protocol.md`): the lists of line writes that bits, bytes,
frames and exchanges stand for. `marks` is the ghost annotation of the exchange's last line write. -/

namespace Sys2Proof.Machine

/-- A line write without ghost marks. -/
def plainWrite (l : Line) (b : Bool) : SeqWrite := ⟨l, b, []⟩

/-- `SendBit(b)` (R91): clock low, data, clock high. -/
def sendBit (b : Bool) : List SeqWrite :=
  [plainWrite .clk false, plainWrite .dio b, plainWrite .clk true]

/-- `SendByte(B)` (R92): bit 0 first. -/
def sendByte (byte : Byte) : List SeqWrite :=
  [0, 1, 2, 3, 4, 5, 6, 7].flatMap (fun i => sendBit (byte.getLsbD i))

/-- `Frame(bytes)` (R93): strobe low, the bytes, strobe high. -/
def frame (bytes : List Byte) (marks : List (Nat × SegCode)) : List SeqWrite :=
  plainWrite .stb false :: bytes.flatMap sendByte ++ [⟨.stb, true, marks⟩]

/-- `Exchange(c, rest)` (R94). -/
def exchange (cfg : Config) (c : Byte) (rest : List Byte) (marks : List (Nat × SegCode)) : List SeqWrite :=
  if rest = [] then frame [c] marks
  else if cfg.splitCmdFrame then frame [c] [] ++ frame rest marks
  else frame (c :: rest) marks

/-- The wire address byte of a position, `ADDR_BASE | (p << 1)` (R53, R84). -/
def addrByte (cfg : Config) (p : Nat) : Byte := cfg.addrBase ||| BitVec.ofNat 8 (p <<< 1)

/-- The data bytes of a position write: the low byte, then, for a wide display, the high byte (R58, R85). -/
def dataBytes (cfg : Config) (s : SegCode) : List Byte :=
  match cfg.segBytes with
  | .one => [s.extractLsb 7 0]
  | .two => [s.extractLsb 7 0, s.extractLsb 15 8]

/-- The data-setting byte of a position write (R95). -/
def writeSegCommand (cfg : Config) : Byte :=
  match cfg.segBytes with
  | .one => cfg.cmdDataFixed
  | .two => cfg.cmdDataAutoinc

/-- The addressing mode a position write leaves (R95). -/
def writeSegMode (cfg : Config) : AddrMode :=
  match cfg.segBytes with
  | .one => .fixed
  | .two => .autoinc

/-- `WriteSeg(p, s)` (R95). -/
def Drv.writeSeg (cfg : Config) (p : Nat) (s : SegCode) (d : Drv) : Drv :=
  { d.enqueue (exchange cfg (writeSegCommand cfg) (addrByte cfg p :: dataBytes cfg s) [(p, s)]) with
    addrMode := writeSegMode cfg }

/-- `WriteSeg` for each pair, in order. -/
def Drv.writeSegs (cfg : Config) (cells : List (Nat × SegCode)) (d : Drv) : Drv :=
  cells.foldl (fun d c => d.writeSeg cfg c.1 c.2) d

/-- The blank segment code (R40). -/
def blankCode : SegCode := 0#16

/-- `ClearBurst()` (R96). -/
def Drv.clearBurst (cfg : Config) (d : Drv) : Drv :=
  { d.enqueue (exchange cfg cfg.cmdDataAutoinc
      (cfg.addrBase :: List.replicate (2 * d.digitCount.toNat) 0x00#8)
      ((List.range d.digitCount.toNat).map (fun p => (p, blankCode)))) with
    addrMode := .autoinc }

end Sys2Proof.Machine
end

