-- ==== Sys2Proof/Machine/Display.lean ====
section
/-! DEFINITION. The meanings of the display commands (file `41_display_commands.md`). A meaning is what happens
at acceptance (R100): the checks, then either a raised status or the register writes and the line writes placed
in `DRV.seq`. The sequencer (`Machine/Clock.lean`) performs those line writes and pulses the response. -/

namespace Sys2Proof.Machine

/-- `INIT` (R102). -/
def Drv.configure (cfg : Config) (digits : Nat) (active : Bool) (intensity : Nat) (d : Drv) : Drv :=
  if h : 1 ≤ digits ∧ digits ≤ maxDigits ∧ intensity ≤ maxIntensity then
    let set : Drv :=
      { d with
        digitCount := BitVec.ofNat 3 digits
        active := active
        intensity := BitVec.ofNat 3 intensity
        configured := true }
    let mode := set.enqueue (exchange cfg (modeByte cfg ⟨digits - 1, by simp only [maxDigits] at h; omega⟩) [] [])
    let cleared := mode.clearBurst cfg
    (cleared.enqueue (exchange cfg (ctrlByte cfg active (BitVec.ofNat 3 intensity)) [] [])).respond .ok
  else d.lockOut.raise .configurationError

/-- `SETBRT` (R103). -/
def Drv.setBrightness (cfg : Config) (active : Bool) (intensity : Nat) (d : Drv) : Drv :=
  d.gated <| d.unlessInvalid (decide (intensity > maxIntensity)) <|
    let set : Drv := { d with active := active, intensity := BitVec.ofNat 3 intensity }
    (set.enqueue (exchange cfg (ctrlByte cfg active (BitVec.ofNat 3 intensity)) [] [])).respond .ok

/-- `CLEAR` (R104). -/
def Drv.clearDisplay (cfg : Config) (d : Drv) : Drv :=
  d.gated ((d.clearBurst cfg).respond .ok)

/-- `SETDIGIT` (R105): position before value; a value above 15 is a silent no-op. -/
def Drv.setDigit (cfg : Config) (position value : Nat) (dp : Bool) (d : Drv) : Drv :=
  d.gated <| d.unlessInvalid (decide (position ≥ d.digitCount.toNat)) <|
    if h : value < 16 then
      (d.writeSeg cfg position (withDp cfg (fontHex cfg ⟨value, h⟩) dp)).respond .ok
    else d.respond .ok

/-- `LDTXT` (R106): not gated. -/
def Drv.loadText (index : Nat) (char : Byte) (d : Drv) : Drv :=
  if h : index < textLen then (d.memWrite ⟨index, h⟩ char).respond .ok
  else d.raise .invalidArgument

/-- `SETSTR` (R107): every character that would be written is looked up before the first line write. -/
def Drv.setString (cfg : Config) (start : Nat) (d : Drv) : Drv :=
  d.gated <| d.unlessInvalid (decide (start ≥ d.digitCount.toNat)) <|
    match scanText cfg d (d.digitCount.toNat - start) 0 with
    | none => d.raise .invalidArgument
    | some codes => (d.writeSegs cfg (cellsFrom start codes)).respond .ok

/-- `SETNUM` (R109): exactly `digitCount` positions, the ones first. -/
def Drv.setNumber (cfg : Config) (value : Nat) (dotMask : BitVec 6) (d : Drv) : Drv :=
  d.gated ((d.writeSegs cfg (renderNumber cfg dotMask d.digitCount.toNat true value)).respond .ok)

/-! ## The meanings -/

/-- `INIT digits, active, intensity` (R102). -/
def execInit (digits : Nat) (active : Bool) (intensity : Nat) (s : State) : Host.Outcome State Fault Refusal :=
  .next (s.withDrv (s.drv.configure s.cfg digits active intensity))

/-- `SETDIGIT position, value, dp` (R105). -/
def execSetdigit (position value : Nat) (dp : Bool) (s : State) : Host.Outcome State Fault Refusal :=
  .next (s.withDrv (s.drv.setDigit s.cfg position value dp))

/-- `LDTXT index, char` (R106). -/
def execLdtxt (index : Nat) (char : Byte) (s : State) : Host.Outcome State Fault Refusal :=
  .next (s.withDrv (s.drv.loadText index char))

/-- `SETSTR start` (R107). -/
def execSetstr (start : Nat) (s : State) : Host.Outcome State Fault Refusal :=
  .next (s.withDrv (s.drv.setString s.cfg start))

/-- `SETNUM value, dotMask` (R109). -/
def execSetnum (value : Nat) (dotMask : BitVec 6) (s : State) : Host.Outcome State Fault Refusal :=
  .next (s.withDrv (s.drv.setNumber s.cfg value dotMask))

/-- `CLEAR` (R104). -/
def execClear (s : State) : Host.Outcome State Fault Refusal :=
  .next (s.withDrv (s.drv.clearDisplay s.cfg))

/-- `SETBRT active, intensity` (R103). -/
def execSetbrt (active : Bool) (intensity : Nat) (s : State) : Host.Outcome State Fault Refusal :=
  .next (s.withDrv (s.drv.setBrightness s.cfg active intensity))

end Sys2Proof.Machine
end

