-- ==== Sys2Proof/Machine/Dispatch.lean ====
section
/-! DEFINITION. One arm per command. -/

namespace Sys2Proof.Machine

def exec (i : Instr) (s : State) : Host.Outcome State Fault Refusal :=
  match i with
  | .init digits active intensity => Sys2Proof.Machine.execInit digits active intensity s
  | .setdigit position value dp => Sys2Proof.Machine.execSetdigit position value dp s
  | .ldtxt index char => Sys2Proof.Machine.execLdtxt index char s
  | .setstr start => Sys2Proof.Machine.execSetstr start s
  | .setnum value dotMask => Sys2Proof.Machine.execSetnum value dotMask s
  | .clear => Sys2Proof.Machine.execClear s
  | .setbrt active intensity => Sys2Proof.Machine.execSetbrt active intensity s
  | .onturn token => Sys2Proof.Machine.execOnturn token s
  | .onpress token => Sys2Proof.Machine.execOnpress token s
  | .tret => Sys2Proof.Machine.execTret s
  | .pret => Sys2Proof.Machine.execPret s

end Sys2Proof.Machine
end

