-- ==== Sys2Proof/Machine/Clock.lean ====
section
/-! DEFINITION. One rising edge of `clk`: acceptance of a command (R100), the sequencer (R26, R89, R100), the
decoder's two channels, reset (R176), and the input ports of the next cycle. -/

namespace Sys2Proof.Machine

/-! ## Ports -/

/-- Output `cmd_ready` (R18). -/
def State.cmdReady (s : State) : Bool := !s.drv.busy

/-- A command is accepted in this cycle (R15, R100). While `rst = 1` none is (R176). -/
def State.accepts (s : State) : Bool := !s.inp.rst && s.inp.cmdValid && s.cmdReady

/-- The output ports (R18). -/
structure Outputs where
  cmdReady : Bool
  rspValid : Bool
  rspStatus : BitVec 3
  stb : Bool
  sclk : Bool
  dio : Bool
  turnValid : Bool
  turnDir : Bool
  turnToken : Token
  pressValid : Bool
  pressToken : Token
  configured : Bool
  busy : Bool
  deriving DecidableEq, Repr

/-- What stands on the output ports in the cycle of `s` (R18). -/
def State.outputs (s : State) : Outputs where
  cmdReady := s.cmdReady
  rspValid := s.drv.rspValid
  rspStatus := s.drv.rspStatus
  stb := s.drv.stb
  sclk := s.drv.clk
  dio := s.drv.dio
  turnValid := s.dec.turnValid
  turnDir := s.dec.turnDir
  turnToken := s.dec.turnTokenOut
  pressValid := s.dec.pressValid
  pressToken := s.dec.pressTokenOut
  configured := s.drv.configured
  busy := s.drv.busy

/-! ## Acceptance -/

/-- The command word `w` is accepted: the command it encodes runs; a word that encodes none changes nothing and
responds `IllegalCommand` (R75, R76, R153). -/
def acceptWord (w : Word) (s : State) : Host.Outcome State Fault Refusal :=
  match decode w with
  | .ok i => exec i s
  | .error _ => .next (s.withDrv (s.drv.raise .illegalCommand))

/-! ## The sequencer -/

/-- The response pulse is raised (R100, R148). -/
def Drv.pulse (d : Drv) : Drv := { d with rspValid := true, rspStatus := d.seqStatus.code, settle := 0 }

/-- At the edge that accepts a command: one without line writes responds in the next cycle (R100, R194). -/
def Drv.respondAtOnce (hold : Bool) (d : Drv) : Drv :=
  if d.seq = [] && !hold then d.pulse else d

/-- The settle delay has passed: the next line write, or the response when none is left (R100). -/
def Drv.advance (cfg : Config) (d : Drv) : Drv :=
  match d.seq with
  | [] => d.finishExchange.pulse
  | w :: rest => { ({ d with seq := rest } : Drv).perform w with settle := cfg.settleTicks }

/-- The sequencer at an edge that accepts no command. The cycle of the response is the last busy one; otherwise
the settle delay runs, and when it has passed the sequencer advances (R89, R100, R171, R194). -/
def Drv.sequencer (cfg : Config) (hold responding : Bool) (d : Drv) : Drv :=
  if !d.busy then d
  else if responding then { d with busy := false }
  else if hold then d
  else if d.settle > 1 then { d with settle := d.settle - 1 }
  else d.advance cfg

/-- The response pulse lasts one cycle (R18): it falls, and its payload is free (assumption 6). -/
def Drv.endPulse (k : Nat) (d : Drv) : Drv :=
  { d with rspValid := false, rspStatus := Config.idleRspStatus k }

/-! ## The input ports -/

/-- The outside world at rest after the cycle `p`, in which a command was accepted or not: no reset, the three
lines keep their levels, a command not yet accepted stays presented (R147), none other is; no hold
(assumption 3). -/
def Inputs.rest (p : Inputs) (accepted : Bool) : Inputs :=
  { p with rst := false, cmdValid := p.cmdValid && !accepted, hold := false }

/-- The input ports of the next cycle. -/
def State.nextInp (s : State) : Inputs :=
  match s.inputs with
  | [] => s.inp.rest s.accepts
  | p :: _ => p

/-- Moves to the input ports of the next cycle; `s` is the block before the edge. -/
def State.advanceInputs (s t : State) : State :=
  { t with inp := s.nextInp, inputs := s.inputs.tail, freeCount := s.freeCount + 1 }

/-! ## The clock edge -/

/-- The pulses of the ending cycle fall. -/
def State.endPulses (s : State) : State :=
  { s with drv := s.drv.endPulse s.freeCount, dec := s.dec.endPulses s.freeCount }

/-- The decoder at the edge, `d` being its state after the command accepted in this cycle: the two channels and
the synchronisers (R130 to R132; assumption 17). -/
def State.decoderEdge (s : State) (d : Dec) : Dec :=
  ((d.turnChannel s.cfg.threshold s.sampled).pressChannel s.sampled).shiftSync s.inp

/-- The rest of the edge after the driver has taken its part: `s` before the edge, `t` so far. -/
def State.finishEdge (s t : State) : State :=
  s.advanceInputs (t.withDec (s.decoderEdge t.dec))

/-- Reset (R176): every register takes its reset value; a frame in progress is cut, no response is pulsed
(assumption 19). -/
def State.resetEdge (s : State) : State := s.advanceInputs (State.resetIn s.cfg)

/-- An edge that accepts no command. -/
def State.idleEdge (s : State) : State :=
  let s1 := s.endPulses
  s.finishEdge (s1.withDrv (s1.drv.sequencer s.cfg s.inp.hold s.drv.rspValid))

/-- An edge that accepts the command word on the port: the command takes its effect, then the edge ends. -/
def State.acceptEdge (s : State) : Host.Outcome State Fault Refusal :=
  match acceptWord s.inp.cmd s.endPulses with
  | .next t => .next (s.finishEdge (t.withDrv (t.drv.respondAtOnce s.inp.hold)))
  | .fault r => .fault r
  | .refused r => .refused r

/-- One rising edge of `clk`. -/
def clockEdge (s : State) : Host.Outcome State Fault Refusal :=
  if s.inp.rst then .next s.resetEdge
  else if s.accepts then s.acceptEdge
  else .next s.idleEdge

end Sys2Proof.Machine
end

