-- ==== Sys2Proof/Machine/Step.lean ====
section
/-! DEFINITION. The step: one rising edge of `clk` in a configuration that meets R10. -/

namespace Sys2Proof.Machine

/-- One rising edge of `clk`; the block is given no behaviour in a configuration that breaks R10
(assumption 13). -/
def step (s : State) : Host.Outcome State Fault Refusal :=
  if s.cfg.wf then clockEdge s else .fault .badConfiguration

/-- The command word made of `nbits` bits of `w` stands on the command port of an idle block, so that the next
step accepts it. The block has no program and no program counter (R16): presenting a word on the port is how a
command comes to run (assumption 5). -/
def State.withFetchWord (s : State) (nbits w : Nat) : State :=
  { s with
    drv := { s.drv with busy := false, seq := [], settle := 0, settling := [] }
    inp := { s.inp with rst := false, cmdValid := true, cmd := tableWord nbits w } }

end Sys2Proof.Machine
end

