-- ==== Sys2Proof/Machine/Observer.lean ====
section
/-! DEFINITION. What an observer reads off the display lines (R97), and which cells of the controller's memory
the bytes of an exchange address (R51, R53). The observer is part of the specification, not of the block: the
step reads nothing of this file. -/

namespace Sys2Proof.Machine

/-- The observer's own state (R97): the three levels, the bits of the frame in progress, the frames read. -/
structure Observer where
  stb : Bool
  clk : Bool
  dio : Bool
  bits : List Bool
  frames : List (List Byte)
  deriving DecidableEq, Repr

/-- The observer before the first line write (R97). -/
def Observer.start : Observer := ⟨true, true, false, [], []⟩

/-- The byte `b0 + 2·b1 + ... + 128·b7` (R97). -/
def byteOfBits (b0 b1 b2 b3 b4 b5 b6 b7 : Bool) : Byte :=
  BitVec.ofNat 8 (b0.toNat + 2 * b1.toNat + 4 * b2.toNat + 8 * b3.toNat
    + 16 * b4.toNat + 32 * b5.toNat + 64 * b6.toNat + 128 * b7.toNat)

/-- Groups of 8 bits in order; `none` when the length is not a multiple of 8 (R97). -/
def bytesOfBits : List Bool → Option (List Byte)
  | [] => some []
  | b0 :: b1 :: b2 :: b3 :: b4 :: b5 :: b6 :: b7 :: rest =>
    (bytesOfBits rest).map (fun bs => byteOfBits b0 b1 b2 b3 b4 b5 b6 b7 :: bs)
  | _ => none

/-- One entry of the wire (R97). -/
def Observer.see (o : Observer) : Line × Bool → Option Observer
  | (.stb, false) => some (if o.stb then { o with stb := false, bits := [] } else { o with stb := false })
  | (.stb, true) =>
    if o.stb then some { o with stb := true }
    else (bytesOfBits o.bits).map (fun bs => { o with stb := true, bits := [], frames := o.frames ++ [bs] })
  | (.clk, false) => some { o with clk := false }
  | (.clk, true) =>
    some (if !o.clk && !o.stb then { o with clk := true, bits := o.bits ++ [o.dio] } else { o with clk := true })
  | (.dio, b) => some { o with dio := b }

/-- A list of entries. -/
def Observer.seeAll (o : Observer) : List (Line × Bool) → Option Observer
  | [] => some o
  | e :: rest => (o.see e).bind (fun o' => o'.seeAll rest)

/-- `framesOf(wire)` (R97); `none` when a frame's bits do not make whole bytes (assumption 20). -/
def framesOf (wire : List (Line × Bool)) : Option (List (List Byte)) :=
  (Observer.start.seeAll wire).map (fun o => o.frames)

/-- The frames of the line writes that are pending. -/
def pendingFrames (ws : List SeqWrite) : Option (List (List Byte)) := framesOf (ws.map SeqWrite.entry)

/-- The frames `Exchange(c, rest)` makes (R94). -/
def exchangeFrames (cfg : Config) (c : Byte) (rest : List Byte) : List (List Byte) :=
  if rest = [] then [[c]] else if cfg.splitCmdFrame then [[c], rest] else [c :: rest]

/-- The frames `WriteSeg(p, s)` makes (R95). -/
def positionFrames (cfg : Config) (p : Nat) (s : SegCode) : List (List Byte) :=
  match cfg.segBytes with
  | .one => exchangeFrames cfg cfg.cmdDataFixed [addrByte cfg p, s.extractLsb 7 0]
  | .two => exchangeFrames cfg cfg.cmdDataAutoinc [addrByte cfg p, s.extractLsb 7 0, s.extractLsb 15 8]

/-- The frames `ClearBurst()` makes on a display of `digits` positions (R96). -/
def clearFrames (cfg : Config) (digits : Nat) : List (List Byte) :=
  exchangeFrames cfg cfg.cmdDataAutoinc (cfg.addrBase :: List.replicate (2 * digits) 0x00#8)

/-- The cells of `DISP` the bytes of one exchange write, as (offset, byte) in order (R51): after
`CMD_DATA_AUTOINC` and an address byte the k-th data byte goes to the offset plus k, after `CMD_DATA_FIXED` the
one data byte goes to the offset. `none` for an exchange that is neither. The offset is the address byte less
`ADDR_BASE` (R47). -/
def dispWrites (cfg : Config) : List Byte → Option (List (Nat × Byte))
  | c :: a :: data =>
    let offset := (a - cfg.addrBase).toNat
    if c = cfg.cmdDataAutoinc then some (data.zipIdx.map (fun e => (offset + e.2, e.1)))
    else if c = cfg.cmdDataFixed then
      match data with
      | [b] => some [(offset, b)]
      | _ => none
    else none
  | _ => none

end Sys2Proof.Machine
end

