-- ==== Sys2Proof/Safety.lean ====
section
/-! DEFINITION. What holds of the block at every clock cycle: the invariant the obligations speak of, in parts
named after the rules they come from, each of them decidable. Then runs of several clock edges. -/

namespace Sys2Proof.Machine

/-- The level of line `l` when the line writes `ws` have been performed from level `b`. -/
def levelAfter (l : Line) : List SeqWrite → Bool → Bool
  | [], b => b
  | w :: rest, b => levelAfter l rest (if w.line = l then w.level else b)

/-- The level of line `l` after the entries of a wire, from level `b`. -/
def wireLevel (l : Line) : List (Line × Bool) → Bool → Bool
  | [], b => b
  | e :: rest, b => wireLevel l rest (if e.1 = l then e.2 else b)

/-- The text buffer is in its canonical form (R24, R47). -/
abbrev Drv.TextOk (d : Drv) : Prop := textWf d.text = true

/-- R20: `digitCount` is 1 to 6 while `configured = 1`. -/
abbrev Drv.CountOk (d : Drv) : Prop :=
  d.configured = true → 1 ≤ d.digitCount.toNat ∧ d.digitCount.toNat ≤ maxDigits

/-- R26, R171: nothing is pending, no delay runs and no response is pulsed while `busy = 0`. -/
abbrev Drv.IdleOk (d : Drv) : Prop :=
  d.busy = false → d.seq = [] ∧ d.settle = 0 ∧ d.settling = [] ∧ d.rspValid = false

/-- R100, R148: the response is pulsed when the last line write has been performed and its delay has passed. -/
abbrev Drv.ResponseOk (d : Drv) : Prop :=
  d.rspValid = true →
    d.busy = true ∧ d.seq = [] ∧ d.settle = 0 ∧ d.settling = [] ∧ d.rspStatus = d.seqStatus.code

/-- R90: when the pending line writes have been performed, strobe and clock are at their idle levels. -/
abbrev Drv.LevelsOk (d : Drv) : Prop :=
  levelAfter .stb d.seq d.stb = true ∧ levelAfter .clk d.seq d.clk = true

/-- R27, R88: the line registers hold what was last written to them since reset. -/
abbrev Drv.WireOk (d : Drv) : Prop :=
  d.stb = wireLevel .stb d.wire true ∧ d.clk = wireLevel .clk d.wire true ∧ d.dio = wireLevel .dio d.wire false

/-- R89: the settle counter never exceeds `SETTLE_TICKS`, and marks wait only while a settle delay runs. -/
abbrev Drv.SettleOk (cfg : Config) (d : Drv) : Prop :=
  d.settle ≤ cfg.settleTicks ∧ (d.settle = 0 → d.settling = [])

/-- R29, R129 (1): `pendingClicks` is 0 to `THRESHOLD`, so it fits `CNT_W` bits. -/
abbrev Dec.CounterOk (cfg : Config) (d : Dec) : Prop :=
  d.pendingClicks ≤ cfg.threshold ∧ d.pendingClicks < 2 ^ cfg.cntW

/-- R129 (2), (3): only a bound source is pending or active. -/
abbrev Dec.BoundOk (d : Dec) : Prop :=
  (d.aPend = true → d.turnBound = true) ∧ (d.swPend = true → d.pressBound = true)
    ∧ (d.turnActive = true → d.turnBound = true) ∧ (d.pressActive = true → d.pressBound = true)

/-- R164: at the pulse the whole step has been taken. -/
abbrev Dec.PulseOk (d : Dec) : Prop :=
  (d.turnValid = true → d.turnActive = true ∧ d.pendingClicks = 0 ∧ d.turnDir = d.lastLevel)
    ∧ (d.pressValid = true → d.pressActive = true)

/-- R37: `SYNC_STAGES` flops on each input. -/
abbrev Dec.SyncOk (cfg : Config) (d : Dec) : Prop :=
  d.aSync.length = cfg.syncStages ∧ d.bSync.length = cfg.syncStages ∧ d.swSync.length = cfg.syncStages

/-- No line write is pending and no exchange waits for its settle delay: a block with `busy = 0` (R26; `IdleOk`). -/
abbrev Drv.NothingPending (d : Drv) : Prop := d.seq = [] ∧ d.settling = []

/-- The invariant of the driver. -/
abbrev Drv.Inv (cfg : Config) (d : Drv) : Prop :=
  d.TextOk ∧ d.CountOk ∧ d.IdleOk ∧ d.ResponseOk ∧ d.LevelsOk ∧ d.WireOk ∧ d.SettleOk cfg

/-- The invariant of the decoder. -/
abbrev Dec.Inv (cfg : Config) (d : Dec) : Prop :=
  d.CounterOk cfg ∧ d.BoundOk ∧ d.PulseOk ∧ d.SyncOk cfg

/-- The invariant of the block. -/
abbrev State.Inv (s : State) : Prop := s.drv.Inv s.cfg ∧ s.dec.Inv s.cfg

/-- `k` clock edges, stopping at the first fault or refusal. -/
def run : Nat → State → Host.Outcome State Fault Refusal
  | 0, s => .next s
  | k + 1, s =>
    match step s with
    | .next t => run k t
    | .fault r => .fault r
    | .refused r => .refused r

/-- No reset is asserted in this cycle or a later one that is scheduled. -/
abbrev State.NoReset (s : State) : Prop :=
  s.inp.rst = false ∧ s.inputs.all (fun p => !p.rst) = true

end Sys2Proof.Machine
end

