-- ==== Sys2Proof/Certificates/Slice0/Obligations.lean ====
section
/-! DEFINITION. The statements for the provers, file by file of the spec. Two conventions hold throughout. A
meaning is stated at acceptance (R100), on a block with nothing pending (`Drv.NothingPending`, which R26 gives
whenever `busy = 0`). What a command sends is stated through the observer of R97, and what it leaves in ghost
`shadow` through `Drv.drain`, the driver when every pending line write has been performed and its settle delay has
passed; `SequencerRunsToResponse` says that the sequencer gets there. -/

open Sys2Proof Sys2Proof.Machine

/-! ## Encoding (`30_encoding.md`) -/

/-- No bit of an encoding is dropped: decoding the word of a well-formed command gives the command back
(R73, R74). -/
def Obligations.DecodeOfEncodeIsIdentity : Prop :=
  ∀ i : Instr, i.wellFormed = true → decode (encode i) = .ok i

/-- A word that decodes is the word of the command it decodes to, and that command is well formed: no two words
mean one command (R73, R76). -/
def Obligations.EncodeOfDecodeIsIdentity : Prop :=
  ∀ (w : Word) (i : Instr), decode w = .ok i → i.wellFormed = true ∧ encode i = w

/-- Words written out from the E-vectors of `95_test_vectors.md`, one or more per format. -/
def Obligations.WrittenOutWordsDecode : Prop :=
  decode 0x10030701#32 = .ok (.init 3 true 7)
  ∧ decode 0x20010601#32 = .ok (.setdigit 1 6 true)
  ∧ decode 0x30020072#32 = .ok (.ldtxt 2 0x72#8)
  ∧ decode 0x40020000#32 = .ok (.setstr 2)
  ∧ decode 0x50200014#32 = .ok (.setnum 20 0b000010#6)
  ∧ decode 0x60000000#32 = .ok .clear
  ∧ decode 0x70000301#32 = .ok (.setbrt true 3)
  ∧ decode 0x800000A1#32 = .ok (.onturn 0x00A1#16)
  ∧ decode 0x9000FFFF#32 = .ok (.onpress 0xFFFF#16)
  ∧ decode 0xA0000000#32 = .ok .tret
  ∧ decode 0xB0000000#32 = .ok .pret

/-- R77: every word either matches exactly one row of R73, whose command the decoder then gives, or matches none
and is illegal. -/
def Obligations.DecodingIsTotalByTheTable : Prop :=
  ∀ w : Word,
    (∃ i, decode w = .ok i ∧ ∃ r ∈ opcodeTable, r.selects w = true ∧ r.mnemonic = i.mnemonic
        ∧ ∀ r' ∈ opcodeTable, r'.selects w = true → r' = r)
    ∨ ((∃ e, decode w = .error e) ∧ ∀ r ∈ opcodeTable, r.selects w = false)

/-- R75, R76: a word with a reserved opcode, and a word of a row's opcode with a must-be-zero bit set, changes no
state, performs no line write and responds `IllegalCommand`, whatever its operands and whether or not the block
is configured. -/
def Obligations.IllegalWordsChangeNothing : Prop :=
  ∀ (w : Word) (s : State),
    (slice w 31 28 ∈ [0x0, 0xC, 0xD, 0xE, 0xF]
      ∨ ∃ r ∈ opcodeTable, slice w 31 28 = slice r.matchBits 31 28 ∧ w &&& r.maskBits ≠ r.matchBits) →
    acceptWord w s = .next (s.withDrv { s.drv with busy := true, seqStatus := .illegalCommand })

/-! ## Serial protocol (`40_serial_protocol.md`) -/

/-- R97: what the observer reads off the line writes of any list of frames is exactly that list of frames, every
byte with every bit in place (R91, R92, R93). -/
def Obligations.FramesReadBackAsSent : Prop :=
  ∀ frames : List (List Byte),
    framesOf ((frames.flatMap (fun bytes => frame bytes [])).map SeqWrite.entry) = some frames

/-- A frame of `n` bytes performs `2 + 24·n` line writes (R93). -/
def Obligations.FrameLineWriteCount : Prop :=
  ∀ (bytes : List Byte) (marks : List (Nat × SegCode)), (frame bytes marks).length = 2 + 24 * bytes.length

/-- The worked example R99: the 26 line writes of `Frame([0x8F])` in order, what the observer reads off them, and
the levels they leave. -/
def Obligations.WorkedFrameExample : Prop :=
  ∀ trace, trace =
    [(Line.stb, false)]
    ++ [(.clk, false), (.dio, true), (.clk, true), (.clk, false), (.dio, true), (.clk, true),
        (.clk, false), (.dio, true), (.clk, true), (.clk, false), (.dio, true), (.clk, true)]
    ++ [(.clk, false), (.dio, false), (.clk, true), (.clk, false), (.dio, false), (.clk, true),
        (.clk, false), (.dio, false), (.clk, true), (.clk, false), (.dio, true), (.clk, true)]
    ++ [(.stb, true)] →
  (frame [0x8F#8] []).map SeqWrite.entry = trace ∧ framesOf trace = some [[0x8F#8]]
  ∧ wireLevel .stb trace true = true ∧ wireLevel .clk trace true = true ∧ wireLevel .dio trace false = true

/-- R94: an exchange is one frame when it has no further byte; else two frames when `SPLIT_CMD_FRAME`, one
otherwise; either way the bytes are the command byte and the rest, in order. -/
def Obligations.ExchangeFrames : Prop :=
  ∀ (cfg : Config) (c : Byte) (rest : List Byte) (marks : List (Nat × SegCode)),
    ∃ frames, pendingFrames (exchange cfg c rest marks) = some frames ∧ frames.flatten = c :: rest
      ∧ (rest = [] → frames = [[c]])
      ∧ (rest ≠ [] → cfg.splitCmdFrame = true → frames = [[c], rest])
      ∧ (rest ≠ [] → cfg.splitCmdFrame = false → frames = [c :: rest])

/-- Where the data bytes of a position write land, under the reading of auto-increment and fixed addressing that
R51 gives: the low byte at offset `2p`, the high byte of a wide display at `2p + 1` (R53, R58); the address byte
is even relative to `ADDR_BASE` (R54). -/
def Obligations.PositionWriteLandsAtItsCells : Prop :=
  ∀ (cfg : Config) (p : Nat) (s : SegCode), cfg.wf = true → p < maxDigits →
    (addrByte cfg p - cfg.addrBase).toNat = 2 * p
    ∧ (cfg.segBytes = .one →
        dispWrites cfg (positionFrames cfg p s).flatten = some [(2 * p, s.extractLsb 7 0)])
    ∧ (cfg.segBytes = .two →
        dispWrites cfg (positionFrames cfg p s).flatten
          = some [(2 * p, s.extractLsb 7 0), (2 * p + 1, s.extractLsb 15 8)])

/-- Where the data bytes of the clear burst land, under the same reading of R51: a zero at each of the
`2 · digits` offsets from 0 (R96). -/
def Obligations.ClearBurstLandsAtItsCells : Prop :=
  ∀ (cfg : Config) (digits : Nat),
    dispWrites cfg (clearFrames cfg digits).flatten
      = some ((List.range (2 * digits)).map (fun offset => (offset, 0x00#8)))

/-! ## Display commands (`41_display_commands.md`) -/

/-- `INIT` (R102): its words; with operands in range the configuration is recorded and mode, clear and brightness
exchanges are sent in that order, the mode and brightness bytes being the configuration's table entries (R81,
R86); out of range `configured` is cleared and nothing else changes. -/
def Obligations.InitMeaning : Prop :=
  (∀ (digits intensity : Byte) (active : Bool),
    decode (formatC 0x1#4 digits intensity active) = .ok (.init digits.toNat active intensity.toNat))
  ∧ (∀ (s : State) (digits intensity : Nat) (active : Bool) (mode ctrl : Byte), s.drv.NothingPending →
      1 ≤ digits → digits ≤ 6 → intensity ≤ 7 → s.cfg.modeBytes[digits - 1]? = some mode →
      (if active then s.cfg.ctrlOn else s.cfg.ctrlOff)[intensity]? = some ctrl →
      ∃ t, exec (.init digits active intensity) s = .next t
        ∧ t = s.withDrv { s.drv with
            configured := true, digitCount := BitVec.ofNat 3 digits, active := active
            intensity := BitVec.ofNat 3 intensity, addrMode := .autoinc
            busy := true, seqStatus := .ok, seq := t.drv.seq }
        ∧ pendingFrames t.drv.seq = some ([[mode]] ++ clearFrames s.cfg digits
            ++ [[ctrl]])
        ∧ ∀ p < maxDigits, t.drv.drain.shadow[p]? = if p < digits then some (some 0#16) else s.drv.shadow[p]?)
  ∧ (∀ (s : State) (digits intensity : Nat) (active : Bool), digits < 1 ∨ digits > 6 ∨ intensity > 7 →
      exec (.init digits active intensity) s
        = .next (s.withDrv { s.drv with configured := false, busy := true, seqStatus := .configurationError }))

/-- `SETBRT` (R103); the brightness byte is the configuration's table entry (R86). -/
def Obligations.SetbrtMeaning : Prop :=
  (∀ (intensity : Byte) (active : Bool),
    decode (formatB 0x7#4 intensity active) = .ok (.setbrt active intensity.toNat))
  ∧ (∀ (s : State) (active : Bool) (intensity : Nat), s.drv.configured = false →
      exec (.setbrt active intensity) s
        = .next (s.withDrv { s.drv with busy := true, seqStatus := .configurationError }))
  ∧ (∀ (s : State) (active : Bool) (intensity : Nat), s.drv.configured = true → intensity > 7 →
      exec (.setbrt active intensity) s
        = .next (s.withDrv { s.drv with busy := true, seqStatus := .invalidArgument }))
  ∧ (∀ (s : State) (active : Bool) (intensity : Nat) (ctrl : Byte), s.drv.NothingPending → s.drv.configured = true →
      intensity ≤ 7 → (if active then s.cfg.ctrlOn else s.cfg.ctrlOff)[intensity]? = some ctrl →
      ∃ t, exec (.setbrt active intensity) s = .next t
        ∧ t = s.withDrv { s.drv with
            active := active, intensity := BitVec.ofNat 3 intensity
            busy := true, seqStatus := .ok, seq := t.drv.seq }
        ∧ pendingFrames t.drv.seq = some [[ctrl]]
        ∧ t.drv.drain.shadow = s.drv.shadow)

/-- `CLEAR` (R104): one auto-increment exchange blanks positions 0 to `digitCount - 1` and no other. -/
def Obligations.ClearMeaning : Prop :=
  decode (formatZ 0x6#4) = .ok .clear
  ∧ (∀ s : State, s.drv.configured = false →
      exec .clear s = .next (s.withDrv { s.drv with busy := true, seqStatus := .configurationError }))
  ∧ (∀ s : State, s.drv.NothingPending → s.drv.configured = true →
      ∃ t, exec .clear s = .next t
        ∧ t = s.withDrv { s.drv with addrMode := .autoinc, busy := true, seqStatus := .ok, seq := t.drv.seq }
        ∧ pendingFrames t.drv.seq = some (clearFrames s.cfg s.drv.digitCount.toNat)
        ∧ ∀ p < maxDigits, t.drv.drain.shadow[p]?
            = if p < s.drv.digitCount.toNat then some (some 0#16) else s.drv.shadow[p]?)

/-- `SETDIGIT` (R105): the gate, then the position, then the value; a value above 15 is a silent no-op. -/
def Obligations.SetdigitMeaning : Prop :=
  (∀ (position value : Byte) (dp : Bool),
    decode (formatD 0x2#4 position value dp) = .ok (.setdigit position.toNat value.toNat dp))
  ∧ (∀ (s : State) (position value : Nat) (dp : Bool), s.drv.configured = false →
      exec (.setdigit position value dp) s
        = .next (s.withDrv { s.drv with busy := true, seqStatus := .configurationError }))
  ∧ (∀ (s : State) (position value : Nat) (dp : Bool), s.drv.configured = true →
      position ≥ s.drv.digitCount.toNat →
      exec (.setdigit position value dp) s
        = .next (s.withDrv { s.drv with busy := true, seqStatus := .invalidArgument }))
  ∧ (∀ (s : State) (position value : Nat) (dp : Bool), s.drv.configured = true →
      position < s.drv.digitCount.toNat → value > 15 →
      exec (.setdigit position value dp) s = .next (s.withDrv { s.drv with busy := true, seqStatus := .ok }))
  ∧ (∀ (s : State) (position value : Nat) (dp : Bool) (font : SegCode), s.drv.NothingPending →
      s.drv.configured = true → position < s.drv.digitCount.toNat → s.cfg.hexFont[value]? = some font →
      ∃ t, exec (.setdigit position value dp) s = .next t
        ∧ t = s.withDrv { s.drv with
            addrMode := (if s.cfg.segBytes = .one then .fixed else .autoinc)
            busy := true, seqStatus := .ok, seq := t.drv.seq }
        ∧ pendingFrames t.drv.seq
            = some (positionFrames s.cfg position (if dp then font ||| 1#16 <<< s.cfg.dpBit else font))
        ∧ ∀ p < maxDigits, t.drv.drain.shadow[p]?
            = if p = position then some (some (if dp then font ||| 1#16 <<< s.cfg.dpBit else font))
              else s.drv.shadow[p]?)

/-- `LDTXT` (R106): the cell takes the character and every other cell keeps its own; not gated by
`configured`. -/
def Obligations.LdtxtMeaning : Prop :=
  (∀ index char : Byte, decode (formatT 0x3#4 index char) = .ok (.ldtxt index.toNat char))
  ∧ (∀ (s : State) (index : Nat) (char : Byte), index > 7 →
      exec (.ldtxt index char) s
        = .next (s.withDrv { s.drv with busy := true, seqStatus := .invalidArgument }))
  ∧ (∀ (s : State) (index : Nat) (char : Byte), s.drv.TextOk → index ≤ 7 →
      ∃ t, exec (.ldtxt index char) s = .next t
        ∧ t = s.withDrv { s.drv with busy := true, seqStatus := .ok, text := t.drv.text }
        ∧ t.drv.TextOk
        ∧ ∀ a : Fin textLen, t.drv.memRead a = if a.val = index then char else s.drv.memRead a)

/-- The codes `SETSTR` writes when it starts with `room` positions left (R107): one per character from index 0,
each mapped and not the terminator, until the terminator or the last position. -/
def Sys2Proof.Machine.textCodes (cfg : Config) (d : Drv) (room : Nat) (codes : List SegCode) : Prop :=
  codes.length ≤ room ∧ codes.length ≤ textLen
  ∧ (∀ k c, codes[k]? = some c → textRead d.text k ≠ 0x00#8 ∧ cfg.charFont.lookup (textRead d.text k) = some c)
  ∧ (codes.length = room ∨ codes.length = textLen ∨ textRead d.text codes.length = 0x00#8)

/-- `SETSTR` meets an unmapped character at text index `k` before it stops (R107). -/
def Sys2Proof.Machine.textUnmappedAt (cfg : Config) (d : Drv) (room k : Nat) : Prop :=
  k < room ∧ k < textLen ∧ (∀ j ≤ k, textRead d.text j ≠ 0x00#8)
  ∧ (∀ j < k, cfg.charFont.lookup (textRead d.text j) ≠ none)
  ∧ cfg.charFont.lookup (textRead d.text k) = none

/-- `SETSTR` (R107): one character per position from `start`; an unmapped one fails before anything is
written; one of the two cases always applies. -/
def Obligations.SetstrMeaning : Prop :=
  (∀ start : Byte, decode (formatS 0x4#4 start) = .ok (.setstr start.toNat))
  ∧ (∀ (s : State) (start : Nat), s.drv.configured = false →
      exec (.setstr start) s
        = .next (s.withDrv { s.drv with busy := true, seqStatus := .configurationError }))
  ∧ (∀ (s : State) (start : Nat), s.drv.configured = true → start ≥ s.drv.digitCount.toNat →
      exec (.setstr start) s
        = .next (s.withDrv { s.drv with busy := true, seqStatus := .invalidArgument }))
  ∧ (∀ (s : State) (start k : Nat), s.drv.configured = true → start < s.drv.digitCount.toNat →
      textUnmappedAt s.cfg s.drv (s.drv.digitCount.toNat - start) k →
      exec (.setstr start) s
        = .next (s.withDrv { s.drv with busy := true, seqStatus := .invalidArgument }))
  ∧ (∀ (s : State) (start : Nat) (codes : List SegCode), s.drv.NothingPending → s.drv.configured = true →
      start < s.drv.digitCount.toNat → textCodes s.cfg s.drv (s.drv.digitCount.toNat - start) codes →
      ∃ t, exec (.setstr start) s = .next t
        ∧ t = s.withDrv { s.drv with
            addrMode := (if codes = [] then s.drv.addrMode
              else if s.cfg.segBytes = .one then .fixed else .autoinc)
            busy := true, seqStatus := .ok, seq := t.drv.seq }
        ∧ pendingFrames t.drv.seq
            = some (codes.zipIdx.flatMap (fun c => positionFrames s.cfg (start + c.2) c.1))
        ∧ ∀ p < maxDigits, t.drv.drain.shadow[p]?
            = if p < start then s.drv.shadow[p]?
              else match codes[p - start]? with
                | some c => some (some c)
                | none => s.drv.shadow[p]?)
  ∧ (∀ (cfg : Config) (d : Drv) (room : Nat),
      (∃ codes, textCodes cfg d room codes) ∨ (∃ k, textUnmappedAt cfg d room k))

/-- The code `SETNUM` shows at the position that is `i` places left of the ones, without its dot (R109):
the decimal digit of weight `10^i`, or blank above the highest digit. -/
def Sys2Proof.Machine.numberCode (cfg : Config) (value i : Nat) : SegCode :=
  if i = 0 ∨ value / 10 ^ i > 0 then cfg.hexFont[value / 10 ^ i % 10]'(by omega) else 0#16

/-- The same with the decimal point of position `p` (R109). -/
def Sys2Proof.Machine.dottedNumberCode (cfg : Config) (value : Nat) (dotMask : BitVec 6) (digits p : Nat) : SegCode :=
  if dotMask.getLsbD p then numberCode cfg value (digits - 1 - p) ||| 1#16 <<< cfg.dpBit
  else numberCode cfg value (digits - 1 - p)

/-- `SETNUM` (R109): every position is written, the ones first; the code of each is given in closed form by the
value's decimal digits. -/
def Obligations.SetnumMeaning : Prop :=
  (∀ (dotMask : BitVec 6) (value : BitVec 20),
    decode (formatN 0x5#4 dotMask value) = .ok (.setnum value.toNat dotMask))
  ∧ (∀ (s : State) (value : Nat) (dotMask : BitVec 6), s.drv.configured = false →
      exec (.setnum value dotMask) s
        = .next (s.withDrv { s.drv with busy := true, seqStatus := .configurationError }))
  ∧ (∀ (s : State) (value : Nat) (dotMask : BitVec 6), s.drv.NothingPending → s.drv.configured = true → s.drv.CountOk →
      ∃ t, exec (.setnum value dotMask) s = .next t
        ∧ t = s.withDrv { s.drv with
            addrMode := (if s.cfg.segBytes = .one then .fixed else .autoinc)
            busy := true, seqStatus := .ok, seq := t.drv.seq }
        ∧ pendingFrames t.drv.seq = some ((List.range s.drv.digitCount.toNat).reverse.flatMap (fun p =>
            positionFrames s.cfg p (dottedNumberCode s.cfg value dotMask s.drv.digitCount.toNat p)))
        ∧ ∀ p < maxDigits, t.drv.drain.shadow[p]?
            = if p < s.drv.digitCount.toNat then
                some (some (dottedNumberCode s.cfg value dotMask s.drv.digitCount.toNat p))
              else s.drv.shadow[p]?)

/-- Runs commands one after the other at acceptance, each on the state the one before leaves. -/
def Sys2Proof.Machine.execAll : List Instr → State → Host.Outcome State Fault Refusal
  | [], s => .next s
  | i :: rest, s =>
    match exec i s with
    | .next t => execAll rest t
    | .fault r => .fault r
    | .refused r => .refused r

/-- `SETTEXT` (R79): its loads leave the characters in cells 0 up and, below 8 characters, the terminator after
them; the cells above keep what they held; then `SETSTR` runs. -/
def Obligations.SetTextExpansion : Prop :=
  ∀ (chars : List Byte) (start : Nat) (s : State), setTextWellFormed chars start = true → s.drv.TextOk →
    (∀ i ∈ Instr.setText chars start, i.wellFormed = true)
    ∧ ∃ t, execAll (Instr.setText chars start) s = exec (.setstr start) t
      ∧ t = s.withDrv { s.drv with busy := true, seqStatus := .ok, text := t.drv.text }
      ∧ ∀ a : Fin textLen, t.drv.memRead a =
          match chars[a.val]? with
          | some c => c
          | none => if a.val = chars.length then 0x00#8 else s.drv.memRead a

/-! ## Decoder commands (`42_decoder.md`) -/

/-- `ONTURN` (R111): it binds the token and touches nothing else. -/
def Obligations.OnturnMeaning : Prop :=
  (∀ token : Token, decode (formatH 0x8#4 token) = .ok (.onturn token))
  ∧ ∀ (s : State) (token : Token), exec (.onturn token) s = .next { s with
      dec := { s.dec with turnBound := true, turnToken := token }
      drv := { s.drv with busy := true, seqStatus := .ok } }

/-- `ONPRESS` (R112). -/
def Obligations.OnpressMeaning : Prop :=
  (∀ token : Token, decode (formatH 0x9#4 token) = .ok (.onpress token))
  ∧ ∀ (s : State) (token : Token), exec (.onpress token) s = .next { s with
      dec := { s.dec with pressBound := true, pressToken := token }
      drv := { s.drv with busy := true, seqStatus := .ok } }

/-- `TRET` (R113): it clears `turnActive` and touches nothing else; a held-off edge stays pending. -/
def Obligations.TretMeaning : Prop :=
  decode (formatZ 0xA#4) = .ok .tret
  ∧ ∀ s : State, exec .tret s = .next { s with
      dec := { s.dec with turnActive := false }
      drv := { s.drv with busy := true, seqStatus := .ok } }

/-- `PRET` (R114). -/
def Obligations.PretMeaning : Prop :=
  decode (formatZ 0xB#4) = .ok .pret
  ∧ ∀ s : State, exec .pret s = .next { s with
      dec := { s.dec with pressActive := false }
      drv := { s.drv with busy := true, seqStatus := .ok } }

/-! ## Statuses and flags (`60_exceptions.md`, `10_state.md`) -/

/-- The commands the configured gate refuses (R101). -/
def Sys2Proof.Machine.gatedCommand : Instr → Bool
  | .clear | .setdigit _ _ _ | .setstr _ | .setnum _ _ | .setbrt _ _ => true
  | _ => false

/-- R150: `ConfigurationError` is raised exactly by an `INIT` out of range, which also clears `configured`, and by
the five gated commands while `configured = 0`; a later valid `INIT` succeeds. -/
def Obligations.ConfigurationErrorExactlyWhen : Prop :=
  (∀ (i : Instr) (s t : State), exec i s = .next t →
    (t.drv.seqStatus = .configurationError ↔
      (∃ digits active intensity, i = .init digits active intensity
          ∧ (digits < 1 ∨ digits > 6 ∨ intensity > 7) ∧ t.drv.configured = false)
      ∨ (gatedCommand i = true ∧ s.drv.configured = false)))
  ∧ (∀ (s : State) (digits intensity : Nat) (active : Bool), 1 ≤ digits → digits ≤ 6 → intensity ≤ 7 →
      ∃ t, exec (.init digits active intensity) s = .next t ∧ t.drv.seqStatus = .ok ∧ t.drv.configured = true)

/-- R151: when `InvalidArgument` is raised, and that no state changes then. -/
def Obligations.InvalidArgumentExactlyWhen : Prop :=
  ∀ (i : Instr) (s t : State), exec i s = .next t →
    (t.drv.seqStatus = .invalidArgument ↔
      (∃ position value dp, i = .setdigit position value dp ∧ s.drv.configured = true
          ∧ position ≥ s.drv.digitCount.toNat)
      ∨ (∃ start, i = .setstr start ∧ s.drv.configured = true ∧ (start ≥ s.drv.digitCount.toNat
          ∨ ∃ k, textUnmappedAt s.cfg s.drv (s.drv.digitCount.toNat - start) k))
      ∨ (∃ index char, i = .ldtxt index char ∧ index > 7)
      ∨ (∃ active intensity, i = .setbrt active intensity ∧ s.drv.configured = true ∧ intensity > 7))
    ∧ (t.drv.seqStatus = .invalidArgument →
        t = s.withDrv { s.drv with busy := true, seqStatus := .invalidArgument })

/-- A command that raises any status performs no line write and changes nothing, except that a failing `INIT`
clears `configured` (R101, R148); and `DisplayRangeError` is never raised (R149, R152). -/
def Obligations.RaisedStatusChangesNothing : Prop :=
  ∀ (w : Word) (s t : State), acceptWord w s = .next t →
    t.drv.seqStatus ≠ .displayRangeError
    ∧ (t.drv.seqStatus ≠ .ok →
        ∃ configured, t = s.withDrv
            { s.drv with configured := configured, busy := true, seqStatus := t.drv.seqStatus }
          ∧ (configured = s.drv.configured
            ∨ configured = false ∧ ∃ digits active intensity, decode w = .ok (.init digits active intensity)))

/-- The codes of the statuses on `rsp_status` (R149): `DisplayRangeError` has a code and is raised by no word, and
a response, whatever the state it comes from, carries the code of the status kept for it, never 5, 6 or 7. -/
def Obligations.StatusCodes : Prop :=
  Status.ok.code = 0#3 ∧ Status.configurationError.code = 1#3 ∧ Status.invalidArgument.code = 2#3
  ∧ Status.displayRangeError.code = 3#3 ∧ Status.illegalCommand.code = 4#3
  ∧ (∀ (w : Word) (s t : State), acceptWord w s = .next t → t.drv.seqStatus ≠ .displayRangeError)
  ∧ (∀ s t : State, step s = .next t → t.drv.rspValid = true →
      t.drv.rspStatus = t.drv.seqStatus.code ∧ t.drv.rspStatus.toNat ≤ 4)

/-- R44: no command writes a flag other than as the table says. `configured` changes by `INIT` alone,
`turnBound` is set by `ONTURN` alone and `pressBound` by `ONPRESS` alone, `turnActive` is cleared by `TRET` alone and
`pressActive` by `PRET` alone, `aPend` and `swPend` by no command; every command sets `busy`. With the flags, the
rest of what commands leave alone: the lines, `wire`, `shadow`, the settle counter and the output registers
change at acceptance by no command (R88, R100), and `TEXT` by `LDTXT` alone (R24). That the configuration and the
input ports are fields of State which no command writes is the model's choice (assumptions 1 and 3). -/
def Obligations.CommandsWriteOnlyTheirFlags : Prop :=
  ∀ (i : Instr) (s t : State), exec i s = .next t →
    t.drv.busy = true
    ∧ (t.drv.configured ≠ s.drv.configured → ∃ digits active intensity, i = .init digits active intensity)
    ∧ (t.dec.turnBound ≠ s.dec.turnBound ∨ t.dec.turnToken ≠ s.dec.turnToken →
        t.dec.turnBound = true ∧ ∃ token, i = .onturn token)
    ∧ (t.dec.pressBound ≠ s.dec.pressBound ∨ t.dec.pressToken ≠ s.dec.pressToken →
        t.dec.pressBound = true ∧ ∃ token, i = .onpress token)
    ∧ (t.dec.turnActive ≠ s.dec.turnActive → t.dec.turnActive = false ∧ i = .tret)
    ∧ (t.dec.pressActive ≠ s.dec.pressActive → t.dec.pressActive = false ∧ i = .pret)
    ∧ t.dec = { s.dec with
        turnBound := t.dec.turnBound, turnToken := t.dec.turnToken, turnActive := t.dec.turnActive
        pressBound := t.dec.pressBound, pressToken := t.dec.pressToken, pressActive := t.dec.pressActive }
    ∧ (t.drv.stb = s.drv.stb ∧ t.drv.clk = s.drv.clk ∧ t.drv.dio = s.drv.dio ∧ t.drv.wire = s.drv.wire
        ∧ t.drv.shadow = s.drv.shadow ∧ t.drv.settle = s.drv.settle ∧ t.drv.settling = s.drv.settling
        ∧ t.drv.rspValid = s.drv.rspValid ∧ t.drv.rspStatus = s.drv.rspStatus)
    ∧ ((∀ index char, i ≠ .ldtxt index char) → ∀ a : Fin textLen, t.drv.memRead a = s.drv.memRead a)
    ∧ t.cfg = s.cfg ∧ t.inp = s.inp ∧ t.inputs = s.inputs

/-- R128: no command reads or writes `lastLevel`, `pendingClicks`, `aPend`, `swPend`. Whatever they hold, a
command does the same to the rest and leaves them as they are. -/
def Obligations.CommandsIgnoreDebounceState : Prop :=
  ∀ (i : Instr) (s t : State) (level : Bool) (clicks : Nat) (aPend swPend : Bool), exec i s = .next t →
    t.dec.lastLevel = s.dec.lastLevel ∧ t.dec.pendingClicks = s.dec.pendingClicks
    ∧ t.dec.aPend = s.dec.aPend ∧ t.dec.swPend = s.dec.swPend
    ∧ exec i { s with dec := { s.dec with
          lastLevel := level, pendingClicks := clicks, aPend := aPend, swPend := swPend } }
        = .next { t with dec := { t.dec with
          lastLevel := level, pendingClicks := clicks, aPend := aPend, swPend := swPend } }

/-! ## Reset (`10_state.md`, `70_reset_and_hazards.md`) -/

/-- R45: the value of every piece of state after reset. -/
def Obligations.ResetValues : Prop :=
  ∀ cfg : Config, ∀ s, s = State.resetIn cfg →
    s.drv.configured = false ∧ s.drv.digitCount = 0#3 ∧ s.drv.active = false ∧ s.drv.intensity = 0#3
    ∧ s.drv.addrMode = .none ∧ (∀ a : Fin textLen, s.drv.memRead a = 0x00#8) ∧ s.drv.busy = false
    ∧ s.drv.seq = []
    ∧ s.dec.lastLevel = false ∧ s.dec.pendingClicks = 0 ∧ s.dec.turnBound = false ∧ s.dec.turnToken = 0#16
    ∧ s.dec.pressBound = false ∧ s.dec.pressToken = 0#16 ∧ s.dec.turnActive = false ∧ s.dec.pressActive = false
    ∧ s.dec.aPend = false ∧ s.dec.swPend = false ∧ s.dec.aPrev = false ∧ s.dec.swPrev = false
    ∧ s.dec.aSync = List.replicate cfg.syncStages false ∧ s.dec.bSync = List.replicate cfg.syncStages false
    ∧ s.dec.swSync = List.replicate cfg.syncStages false
    ∧ s.drv.wire = [] ∧ (∀ p < maxDigits, s.drv.shadow[p]? = some none)
    ∧ s.outputs = ⟨true, false, 0#3, true, true, false, false, false, 0#16, false, 0#16, false, false⟩

/-- R176: at an edge with `rst = 1` every register takes its reset value, whatever was in progress; no command is
accepted, no edge detected, no response pulsed. Two things said here are the model's choice: that the
configuration stays (assumptions 1 and 19), and that the status kept beside the empty sequencer is `ok` (assumption 12). -/
def Obligations.ResetEdgeTakesResetValues : Prop :=
  ∀ s : State, s.cfg.wf = true → s.inp.rst = true →
    ∃ t, step s = .next t ∧ t.drv = (State.resetIn s.cfg).drv ∧ t.dec = (State.resetIn s.cfg).dec ∧ t.cfg = s.cfg
      ∧ s.accepts = false

/-! ## The clock edge -/

/-- In a configuration that meets R10 no state, word or input stops the block (R126, R156: no status halts it,
every edge pattern is valid); in one that does not, the spec gives no behaviour and the model stops by name
(assumption 13). -/
def Obligations.StepNeverStops : Prop :=
  ∀ s : State, (s.cfg.wf = true → ∃ t, step s = .next t)
    ∧ (s.cfg.wf = false → step s = .fault .badConfiguration)

/-- A step runs the decoded command: in a cycle in which a word is accepted and decodes, the edge is `exec` of
that command on the state whose pulses have fallen, then the response of a command without line writes, then the
decoder's channels and the next cycle's inputs. -/
def Obligations.StepRunsDecodedCommand : Prop :=
  ∀ (s : State) (i : Instr), s.cfg.wf = true → s.inp.rst = false → s.inp.cmdValid = true → s.drv.busy = false →
    decode s.inp.cmd = .ok i →
    ∃ t, exec i s.endPulses = .next t
      ∧ step s = .next (s.finishEdge (t.withDrv (t.drv.respondAtOnce s.inp.hold)))

/-- A well-formed command's word, put where the next step takes its command from, is run by that step. How a
program comes to run, by `withFetchWord`, which presents the word and also makes the block idle, is the model's
choice (assumption 5). -/
def Obligations.PresentedWordIsRun : Prop :=
  ∀ (s : State) (i : Instr), s.cfg.wf = true → i.wellFormed = true →
    ∀ s', s' = s.withFetchWord 32 (encode i).toNat →
    ∃ t, exec i s'.endPulses = .next t
      ∧ step s' = .next (s'.finishEdge (t.withDrv (t.drv.respondAtOnce s'.inp.hold)))

/-- The invariant (R20, R24, R26, R27, R29, R37, R89, R90, R129, R148, R164) holds after reset, in every
configuration that meets R10. -/
def Obligations.ResetMeetsInvariant : Prop :=
  State.reset.Inv ∧ ∀ cfg : Config, cfg.wf = true → (State.resetIn cfg).Inv

/-- Every step keeps the invariant. -/
def Obligations.StepKeepsInvariant : Prop :=
  ∀ s t : State, s.Inv → step s = .next t → t.Inv

/-- While `busy = 1` no command is accepted: what stands on the command port makes no difference to the block
(R25, R62, R185). -/
def Obligations.BusyBlockIgnoresCommandPort : Prop :=
  ∀ (s t t' : State) (valid : Bool) (w : Word), s.drv.busy = true → step s = .next t →
    step { s with inp := { s.inp with cmdValid := valid, cmd := w } } = .next t' →
    t'.drv = t.drv ∧ t'.dec = t.dec

/-- R65, R88: line writes occur exactly in the order of `seq`, one at a time, and `wire` only grows by them. At an
edge without reset either `wire` stays, and with it the lines and, when no word is accepted, `seq`; or the first
pending line write is performed: it leaves `seq`, joins `wire`, and its line alone takes its level. That no line
write is performed at the accepting edge itself is the model's reading of R100 (assumption 8). -/
def Obligations.WireGrowsInSequenceOrder : Prop :=
  ∀ s t : State, s.inp.rst = false → step s = .next t →
    (t.drv.wire = s.drv.wire ∧ t.drv.stb = s.drv.stb ∧ t.drv.clk = s.drv.clk ∧ t.drv.dio = s.drv.dio
      ∧ (s.accepts = false → t.drv.seq = s.drv.seq))
    ∨ (s.drv.busy = true ∧ ∃ w rest, s.drv.seq = w :: rest ∧ t.drv.seq = rest
        ∧ t.drv.wire = s.drv.wire ++ [w.entry]
        ∧ t.drv.stb = (if w.line = .stb then w.level else s.drv.stb)
        ∧ t.drv.clk = (if w.line = .clk then w.level else s.drv.clk)
        ∧ t.drv.dio = (if w.line = .dio then w.level else s.drv.dio))

/-- The registers that only a command or reset writes are the same in two states (R19 to R24, R26, R31, R32). -/
def Sys2Proof.Machine.sameCommandRegisters (s t : State) : Prop :=
  t.drv.configured = s.drv.configured ∧ t.drv.digitCount = s.drv.digitCount ∧ t.drv.active = s.drv.active
  ∧ t.drv.intensity = s.drv.intensity ∧ t.drv.addrMode = s.drv.addrMode ∧ t.drv.text = s.drv.text
  ∧ t.drv.seqStatus = s.drv.seqStatus ∧ t.dec.turnBound = s.dec.turnBound ∧ t.dec.turnToken = s.dec.turnToken
  ∧ t.dec.pressBound = s.dec.pressBound ∧ t.dec.pressToken = s.dec.pressToken ∧ t.cfg = s.cfg

/-- What an edge without reset leaves alone (R19 to R25, R31, R32, R44). Without an accepted word no register that
commands write changes, and `busy` only falls, in the cycle of the response (R25). With one, the edge adds nothing
to what the word does: the word runs on the block whose pulses have fallen, and the registers commands write, `busy`
and the pending line writes, `wire`, lines and `shadow` are as it leaves them. That the configuration is a field of
State is the model's choice (assumption 1), and that no line write is performed at this edge its reading of R100
(assumption 8). -/
def Obligations.EdgesKeepCommandRegisters : Prop :=
  ∀ s t : State, s.inp.rst = false → step s = .next t →
    (s.accepts = false → sameCommandRegisters s t
      ∧ (s.drv.busy = false → t.drv.busy = false)
      ∧ (s.drv.busy = true → t.drv.busy = !s.drv.rspValid))
    ∧ s.endPulses = { s with
        drv := { s.drv with rspValid := false, rspStatus := s.endPulses.drv.rspStatus }
        dec := { s.dec with
          turnValid := false, turnDir := s.endPulses.dec.turnDir, turnTokenOut := s.endPulses.dec.turnTokenOut
          pressValid := false, pressTokenOut := s.endPulses.dec.pressTokenOut } }
    ∧ (s.accepts = true → ∃ e, acceptWord s.inp.cmd s.endPulses = .next e ∧ sameCommandRegisters e t
      ∧ t.drv.busy = e.drv.busy ∧ t.drv.seq = e.drv.seq ∧ t.drv.wire = e.drv.wire ∧ t.drv.stb = e.drv.stb
      ∧ t.drv.clk = e.drv.clk ∧ t.drv.dio = e.drv.dio ∧ t.drv.shadow = e.drv.shadow
      ∧ t.drv.settling = e.drv.settling)

/-- The output ports in every state (R18): `cmd_ready` is not `busy`, the lines, `configured` and `busy` mirror
their registers, the response and event ports are their output registers; and a response pulse lasts one cycle,
the last busy one (R18, R100). -/
def Obligations.OutputPorts : Prop :=
  (∀ s : State, s.outputs = {
      cmdReady := !s.drv.busy, rspValid := s.drv.rspValid, rspStatus := s.drv.rspStatus
      stb := s.drv.stb, sclk := s.drv.clk, dio := s.drv.dio
      turnValid := s.dec.turnValid, turnDir := s.dec.turnDir, turnToken := s.dec.turnTokenOut
      pressValid := s.dec.pressValid, pressToken := s.dec.pressTokenOut
      configured := s.drv.configured, busy := s.drv.busy })
  ∧ ∀ s t : State, s.Inv → step s = .next t → s.outputs.rspValid = true →
      s.outputs.busy = true ∧ t.outputs.rspValid = false ∧ t.outputs.busy = false ∧ t.outputs.cmdReady = true

/-- R89: after a line write the block performs no other for `SETTLE_TICKS` cycles; nor does ghost `shadow` change
in that time, because the settle delay of its last line write belongs to the exchange (R93 to R96, R100). -/
def Obligations.LineWritesKeepSettleDelay : Prop :=
  ∀ (s t : State), s.Inv → s.NoReset → step s = .next t → t.drv.wire ≠ s.drv.wire →
    ∀ (k : Nat) (u : State), k < s.cfg.settleTicks → run k t = .next u →
      u.drv.wire = t.drv.wire ∧ u.drv.shadow = t.drv.shadow

/-- When ghost `shadow` changes (R43, R95, R96, R100). The marks of an exchange stand on its last line write. At an
edge without reset either no settle delay ends, and `shadow` stays; or the settle delay of the line write performed
last has passed, and `shadow` takes the codes of the exchange that ended with it, each position its own, before the
next line write is performed or the response pulsed. How the marks are kept meanwhile, in `settling`, is the
model's choice (assumption 9). -/
def Obligations.ShadowTakesFinishedExchanges : Prop :=
  (∀ (cfg : Config) (c : Byte) (rest : List Byte) (marks : List (Nat × SegCode)),
    ∃ before, exchange cfg c rest marks = before ++ [⟨.stb, true, marks⟩] ∧ ∀ w ∈ before, w.marks = [])
  ∧ ∀ s t : State, s.inp.rst = false → step s = .next t →
    (t.drv.shadow = s.drv.shadow ∧ t.drv.settling = s.drv.settling ∧ t.drv.wire = s.drv.wire)
    ∨ (s.drv.busy = true ∧ s.drv.settle ≤ 1
      ∧ (∀ p < maxDigits, t.drv.shadow[p]? =
          match (s.drv.settling.filter (fun m => m.1 = p)).getLast? with
          | some m => some (some m.2)
          | none => s.drv.shadow[p]?)
      ∧ (s.drv.seq = [] → t.drv.settling = [] ∧ t.drv.rspValid = true)
      ∧ ∀ w rest, s.drv.seq = w :: rest → t.drv.settling = w.marks ∧ t.drv.wire = s.drv.wire ++ [w.entry])

/-- No reset and no hold in this cycle or a scheduled later one. -/
def Sys2Proof.Machine.undisturbed (s : State) : Prop :=
  s.inp.rst = false ∧ s.inp.hold = false ∧ ∀ p ∈ s.inputs, p.rst = false ∧ p.hold = false

/-- The sequencer carries every accepted command to its response (R100, R148). From the cycle after acceptance,
with `n` line writes pending and neither reset nor hold, the response is pulsed after `n · SETTLE_TICKS + 1`
edges and not before, every pending line write having been performed in order; the cycle of the pulse is the last
busy one. The number of edges is the model's (assumption 7). -/
def Obligations.SequencerRunsToResponse : Prop :=
  ∀ s : State, s.cfg.wf = true → undisturbed s → s.drv.busy = true → s.drv.rspValid = false → s.drv.settle = 0 →
    (∀ k u, k ≤ s.drv.seq.length * s.cfg.settleTicks → run k s = .next u → u.drv.rspValid = false)
    ∧ ∃ t, run (s.drv.seq.length * s.cfg.settleTicks + 1) s = .next t
      ∧ t.drv.rspValid = true ∧ t.drv.rspStatus = s.drv.seqStatus.code ∧ t.drv.busy = true ∧ t.drv.seq = []
      ∧ t.drv.wire = s.drv.wire ++ s.drv.seq.map SeqWrite.entry
      ∧ t.drv.shadow = s.drv.drain.shadow ∧ t.drv.stb = s.drv.drain.stb ∧ t.drv.clk = s.drv.drain.clk
      ∧ t.drv.dio = s.drv.drain.dio
      ∧ ∃ u, step t = .next u ∧ u.drv.busy = false ∧ u.drv.rspValid = false ∧ u.drv.wire = t.drv.wire

/-- A command with no line write responds in the cycle after acceptance, which is its only busy cycle (R100,
R194), unless the implementation holds (assumption 7). -/
def Obligations.NoWriteCommandRespondsNextCycle : Prop :=
  ∀ (s t : State), s.cfg.wf = true → s.accepts = true → s.inp.hold = false →
    acceptWord s.inp.cmd s.endPulses = .next t → t.drv.seq = [] →
    ∃ u, step s = .next u ∧ u.drv.busy = true ∧ u.drv.rspValid = true ∧ u.drv.rspStatus = t.drv.seqStatus.code
      ∧ (u.inp.rst = false → ∃ v, step u = .next v ∧ v.drv.busy = false ∧ v.drv.rspValid = false)

/-- R66: the two sub-blocks share no state. What the driver does at an edge does not depend on the decoder or on
the encoder lines; what the decoder does does not depend on the driver, unless a decoder command is accepted. -/
def Obligations.DriverAndDecoderShareNothing : Prop :=
  (∀ (s t t' : State) (dec : Dec) (a b sw : Bool) (later : List Inputs), step s = .next t →
    step { s with dec := dec, inp := { s.inp with encA := a, encB := b, encSw := sw }, inputs := later }
      = .next t' → t'.drv = t.drv)
  ∧ (∀ (s t t' : State) (drv : Drv), step s = .next t → step { s with drv := drv } = .next t' →
    (∀ i, decode s.inp.cmd = .ok i → (∀ token, i ≠ .onturn token ∧ i ≠ .onpress token) ∧ i ≠ .tret ∧ i ≠ .pret) →
    t'.dec = t.dec)

/-! ## The decoder's steps (`42_decoder.md`) -/

/-- `TurnStep` (R116) with the emission of R117. -/
def Obligations.TurnStepMeaning : Prop :=
  ∀ (threshold : Nat) (token : Token) (level : Bool) (d : Dec),
    (level = d.lastLevel → d.pendingClicks + 1 > threshold →
      d.turnStep threshold token level = { d with
        pendingClicks := 0, lastLevel := level
        turnValid := true, turnDir := level, turnTokenOut := token, turnActive := true })
    ∧ (level = d.lastLevel → ¬ d.pendingClicks + 1 > threshold →
      d.turnStep threshold token level = { d with pendingClicks := d.pendingClicks + 1, lastLevel := level })
    ∧ (level ≠ d.lastLevel →
      d.turnStep threshold token level = { d with pendingClicks := 0, lastLevel := level })

/-- The events `FallA` and `ServeA` (R115, R118, R119, R124). -/
def Obligations.TurnEventsMeaning : Prop :=
  ∀ (threshold : Nat) (level : Bool) (d : Dec),
    (d.turnBound = false → d.fallA threshold level = d)
    ∧ (d.turnBound = true → d.turnActive = true → d.fallA threshold level = { d with aPend := true })
    ∧ (d.turnBound = true → d.turnActive = false →
        d.fallA threshold level = d.turnStep threshold d.turnToken level)
    ∧ (d.aPend = true → d.turnActive = false →
        d.serveA threshold level = ({ d with aPend := false } : Dec).turnStep threshold d.turnToken level)

/-- The events `FallSW` and `ServeSW` (R120 to R124). -/
def Obligations.PressEventsMeaning : Prop :=
  ∀ d : Dec,
    (d.pressBound = false → d.fallSW = d)
    ∧ (d.pressBound = true → d.pressActive = true → d.fallSW = { d with swPend := true })
    ∧ (d.pressBound = true → d.pressActive = false → d.fallSW = { d with
        pressValid := true, pressTokenOut := d.pressToken, pressActive := true })
    ∧ (d.swPend = true → d.pressActive = false → d.serveSW = { d with
        swPend := false, pressValid := true, pressTokenOut := d.pressToken, pressActive := true })

/-- `TRET` is accepted in the cycle of `s`. -/
def Sys2Proof.Machine.tretNow (s : State) : Bool := s.accepts && decide (decode s.inp.cmd = .ok .tret)

/-- `PRET` is accepted in the cycle of `s`. -/
def Sys2Proof.Machine.pretNow (s : State) : Bool := s.accepts && decide (decode s.inp.cmd = .ok .pret)

/-- R131: the turn channel at every clock edge with `rst = 0`. -/
def Obligations.TurnChannelCycle : Prop :=
  ∀ (s t : State) (aNow bNow aFall active : Bool), s.inp.rst = false → step s = .next t →
    aNow = syncOut s.inp.encA s.dec.aSync → bNow = syncOut s.inp.encB s.dec.bSync →
    aFall = (s.dec.turnBound && s.dec.aPrev && !aNow) → active = (s.dec.turnActive && !tretNow s) →
    t.dec.aPrev = aNow
    ∧ ((s.dec.aPend || aFall) = true → active = false →
        t.dec.aPend = false ∧ t.dec.lastLevel = bNow
        ∧ (bNow = s.dec.lastLevel → s.dec.pendingClicks + 1 > s.cfg.threshold →
            t.dec.pendingClicks = 0 ∧ t.dec.turnActive = true ∧ t.dec.turnValid = true ∧ t.dec.turnDir = bNow
            ∧ t.dec.turnTokenOut = s.dec.turnToken)
        ∧ (bNow = s.dec.lastLevel → ¬ s.dec.pendingClicks + 1 > s.cfg.threshold →
            t.dec.pendingClicks = s.dec.pendingClicks + 1 ∧ t.dec.turnActive = false ∧ t.dec.turnValid = false)
        ∧ (bNow ≠ s.dec.lastLevel →
            t.dec.pendingClicks = 0 ∧ t.dec.turnActive = false ∧ t.dec.turnValid = false))
    ∧ (¬ ((s.dec.aPend || aFall) = true ∧ active = false) →
        t.dec.aPend = (s.dec.aPend || aFall) ∧ t.dec.turnActive = active ∧ t.dec.turnValid = false
        ∧ t.dec.lastLevel = s.dec.lastLevel ∧ t.dec.pendingClicks = s.dec.pendingClicks)

/-- R132: the button channel at every clock edge with `rst = 0`. -/
def Obligations.PressChannelCycle : Prop :=
  ∀ (s t : State) (swNow swFall active : Bool), s.inp.rst = false → step s = .next t →
    swNow = syncOut s.inp.encSw s.dec.swSync → swFall = (s.dec.pressBound && s.dec.swPrev && !swNow) →
    active = (s.dec.pressActive && !pretNow s) →
    t.dec.swPrev = swNow
    ∧ ((s.dec.swPend || swFall) = true → active = false →
        t.dec.swPend = false ∧ t.dec.pressActive = true ∧ t.dec.pressValid = true
        ∧ t.dec.pressTokenOut = s.dec.pressToken)
    ∧ (¬ ((s.dec.swPend || swFall) = true ∧ active = false) →
        t.dec.swPend = (s.dec.swPend || swFall) ∧ t.dec.pressActive = active ∧ t.dec.pressValid = false)

/-- The cycle level refines the event level: with the binding unchanged in the cycle, the turn channel does what
`ServeA`, `FallA` or no event does (R131 against R115, R118, R119), and the button channel what `ServeSW`,
`FallSW` or no event does (R132 against R120, R122, R123). -/
def Obligations.ChannelsRefineEvents : Prop :=
  ∀ (threshold : Nat) (r : Sampled) (d : Dec),
    (r.turnBound = d.turnBound → r.turnToken = d.turnToken →
      d.turnChannel threshold r = { (if d.aPend && !d.turnActive then d.serveA threshold r.bNow
          else if d.aPrev && !r.aNow then d.fallA threshold r.bNow
          else d) with aPrev := r.aNow })
    ∧ (r.pressBound = d.pressBound → r.pressToken = d.pressToken →
      d.pressChannel r = { (if d.swPend && !d.pressActive then d.serveSW
          else if d.swPrev && !r.swNow then d.fallSW
          else d) with swPrev := r.swNow })

/-- The order of the two channels makes no difference, at cycle level and at event level (R66, R132, R162). -/
def Obligations.ChannelOrderIsImmaterial : Prop :=
  ∀ (threshold : Nat) (level : Bool) (r : Sampled) (d : Dec),
    (d.turnChannel threshold r).pressChannel r = (d.pressChannel r).turnChannel threshold r
    ∧ (d.fallA threshold level).fallSW = d.fallSW.fallA threshold level
    ∧ (d.serveA threshold level).serveSW = d.serveSW.serveA threshold level

/-- R124, R158: an unbound source drops its edges without trace. At every step from a state in which the turn
source is unbound, whatever the lines do and also when `ONTURN` is accepted in that cycle, the debounce state does
not move, nothing is pending and no event is delivered; the same for the button. -/
def Obligations.UnboundSourceDropsEdges : Prop :=
  (∀ (threshold : Nat) (level : Bool) (d : Dec),
    (d.turnBound = false → d.fallA threshold level = d) ∧ (d.pressBound = false → d.fallSW = d))
  ∧ (∀ s t : State, s.Inv → s.inp.rst = false → step s = .next t →
    (s.dec.turnBound = false → t.dec.lastLevel = s.dec.lastLevel ∧ t.dec.pendingClicks = s.dec.pendingClicks
        ∧ t.dec.aPend = false ∧ t.dec.turnActive = false ∧ t.dec.turnValid = false)
    ∧ (s.dec.pressBound = false →
        t.dec.swPend = false ∧ t.dec.pressActive = false ∧ t.dec.pressValid = false))

/-- R166: no second `Turn` is delivered before `TRET`, no second `Press` before `PRET`; while its handler is
active a source's edges move nothing but its pending bit (R118, R160). -/
def Obligations.ActiveSourceNeverNests : Prop :=
  ∀ s t : State, s.inp.rst = false → step s = .next t →
    (s.dec.turnActive = true → tretNow s = false →
      t.dec.turnValid = false ∧ t.dec.turnActive = true ∧ t.dec.lastLevel = s.dec.lastLevel
      ∧ t.dec.pendingClicks = s.dec.pendingClicks)
    ∧ (s.dec.pressActive = true → pretNow s = false → t.dec.pressValid = false ∧ t.dec.pressActive = true)

/-- The turn steps of edges processed one after the other, each returned from before the next. -/
def Sys2Proof.Machine.turnSteps (threshold : Nat) (token : Token) (levels : List Bool) (d : Dec) : Dec :=
  levels.foldl (fun d level => (d.turnStep threshold token level).returnTurn) d

/-- A turn step at `level` emits. -/
def Sys2Proof.Machine.turnEmits (threshold : Nat) (token : Token) (level : Bool) (d : Dec) : Prop :=
  (({ d with turnActive := false } : Dec).turnStep threshold token level).turnActive = true

/-- R125: an emission needs `THRESHOLD + 1` consecutive processed edges whose sampled levels all equal
`lastLevel` as it stood before the first of them. -/
def Obligations.EmissionNeedsEqualRun : Prop :=
  ∀ (threshold : Nat) (token : Token) (levels : List Bool) (level : Bool) (d : Dec), d.pendingClicks = 0 →
    turnEmits threshold token level (turnSteps threshold token levels d) →
    ∃ before, levels = before ++ List.replicate threshold level
      ∧ (turnSteps threshold token before d).lastLevel = level

/-- The property S5 for every threshold, with the premise C2 adds: from `pendingClicks = 0`, edges held at the
recorded level emit at edge `THRESHOLD + 1` and at none before, with the held level as direction. -/
def Obligations.HeldLevelEmitsOnce : Prop :=
  ∀ (threshold : Nat) (token : Token) (d : Dec), d.pendingClicks = 0 →
    (∀ n ≤ threshold, (turnSteps threshold token (List.replicate n d.lastLevel) d).pendingClicks = n
      ∧ (turnEmits threshold token d.lastLevel (turnSteps threshold token (List.replicate n d.lastLevel) d)
          ↔ n = threshold))
    ∧ ∀ e, e = (turnSteps threshold token (List.replicate threshold d.lastLevel) d).turnStep threshold token d.lastLevel →
      e.turnValid = true ∧ e.turnDir = d.lastLevel ∧ e.turnTokenOut = token ∧ e.pendingClicks = 0

/-- R130: at every clock edge with `rst = 0` each of the three synchronisers shifts in its own pin's level; and the
number of stages only delays: after at least as many edges as there are flops, what a synchroniser shows is the
pin's level that many cycles ago. -/
def Obligations.SynchroniserOnlyDelays : Prop :=
  (∀ s t : State, s.inp.rst = false → step s = .next t →
    t.dec.aSync = syncShift s.inp.encA s.dec.aSync ∧ t.dec.bSync = syncShift s.inp.encB s.dec.bSync
    ∧ t.dec.swSync = syncShift s.inp.encSw s.dec.swSync)
  ∧ ∀ (flops pins : List Bool) (pin : Bool), flops.length ≤ pins.length →
    (pins ++ [pin])[pins.length - flops.length]?
      = some (syncOut pin (pins.foldl (fun f p => syncShift p f) flops))
end

