-- ==== Sys2Proof/Laws/Text.lean ====
section
/-! SUPPORT. The laws of the text buffer: read after write, and that writing keeps the canonical form. -/

namespace Sys2Proof.Machine

theorem textWfFrom_cons (lo : Nat) (a : Nat) (v : Byte) (m : List Host.Cell) :
    textWfFrom lo ((a, v) :: m) = true ↔
      lo ≤ a ∧ a < textLen ∧ v ≠ textDefault ∧ textWfFrom (a + 1) m = true := by
  simp [textWfFrom, and_assoc]

theorem textWfFrom_mono {lo lo' : Nat} {m : List Host.Cell} (h : textWfFrom lo m = true) (hle : lo' ≤ lo) :
    textWfFrom lo' m = true := by
  cases m with
  | nil => rfl
  | cons c m =>
    obtain ⟨a, v⟩ := c
    rw [textWfFrom_cons] at h ⊢
    exact ⟨by omega, h.2⟩

/-- An address below every listed one reads as an unlisted one. -/
theorem textRead_below {lo a : Nat} {m : List Host.Cell} (h : textWfFrom lo m = true) (ha : a < lo) :
    textRead m a = textDefault := by
  induction m generalizing lo with
  | nil => rfl
  | cons c m ih =>
    obtain ⟨b, x⟩ := c
    rw [textWfFrom_cons] at h
    rw [textRead, if_neg (by omega)]
    exact ih h.2.2.2 (by omega)

theorem textWfFrom_textWrite {lo a : Nat} {v : Byte} {m : List Host.Cell} (h : textWfFrom lo m = true)
    (hlo : lo ≤ a) (ha : a < textLen) : textWfFrom lo (textWrite m a v) = true := by
  induction m generalizing lo with
  | nil =>
    unfold textWrite
    split
    · rfl
    · rw [textWfFrom_cons]; exact ⟨hlo, ha, by assumption, rfl⟩
  | cons c m ih =>
    obtain ⟨b, x⟩ := c
    have hc := h
    rw [textWfFrom_cons] at hc
    obtain ⟨hb, hbl, hx, hm⟩ := hc
    unfold textWrite
    split
    · split
      · exact h
      · rw [textWfFrom_cons, textWfFrom_cons]
        exact ⟨hlo, ha, by assumption, by omega, hbl, hx, hm⟩
    · split
      · split
        · exact textWfFrom_mono hm (by omega)
        · rw [textWfFrom_cons]
          exact ⟨hlo, ha, by assumption, textWfFrom_mono hm (by omega)⟩
      · rw [textWfFrom_cons]
        exact ⟨hb, hbl, hx, ih hm (by omega)⟩

/-- Writing keeps the canonical form. -/
theorem textWf_textWrite {a : Nat} {v : Byte} {m : List Host.Cell} (h : textWf m = true) (ha : a < textLen) :
    textWf (textWrite m a v) = true :=
  textWfFrom_textWrite h (Nat.zero_le a) ha

theorem textRead_textWrite_from {lo a b : Nat} {v : Byte} {m : List Host.Cell} (h : textWfFrom lo m = true) :
    textRead (textWrite m a v) b = if b = a then v else textRead m b := by
  induction m generalizing lo with
  | nil =>
    unfold textWrite
    split <;> simp_all [textRead]
  | cons c m ih =>
    obtain ⟨k, x⟩ := c
    rw [textWfFrom_cons] at h
    obtain ⟨_, _, _, hm⟩ := h
    unfold textWrite
    split
    · split
      · rename_i hak hv
        have : ¬ a = k := by omega
        have hread := textRead_below hm (a := a) (by omega)
        by_cases hba : b = a
        · simp [textRead, hba, this, hread, hv]
        · simp [hba]
      · simp [textRead]
    · split
      · rename_i hk
        subst hk
        have hread := textRead_below hm (a := a) (by omega)
        split
        · rename_i hv
          by_cases hba : b = a
          · simp [hba, hread, hv]
          · simp [textRead, hba]
        · by_cases hba : b = a <;> simp [textRead, hba]
      · rename_i hak
        by_cases hbk : b = k
        · have : ¬ k = a := fun hka => hak hka.symm
          simp [textRead, hbk, this]
        · simp [textRead, hbk, ih hm]

/-- Read after write, at every address (R48). -/
theorem textRead_textWrite {a b : Nat} {v : Byte} {m : List Host.Cell} (h : textWf m = true) :
    textRead (textWrite m a v) b = if b = a then v else textRead m b :=
  textRead_textWrite_from h

@[simp] theorem textWf_nil : textWf [] = true := rfl

@[simp] theorem textRead_nil (a : Nat) : textRead [] a = textDefault := rfl

/-- `MemWrite` keeps the canonical form. -/
theorem Drv.memWrite_wf {d : Drv} (i : Fin textLen) (v : Byte) (h : textWf d.text = true) :
    textWf (d.memWrite i v).text = true :=
  textWf_textWrite h i.isLt

/-- `MemRead` after `MemWrite`. -/
theorem Drv.memRead_memWrite {d : Drv} (i a : Fin textLen) (v : Byte) (h : textWf d.text = true) :
    (d.memWrite i v).memRead a = if a = i then v else d.memRead a := by
  simp only [Drv.memRead, Drv.memWrite, textRead_textWrite h, Fin.ext_iff]

end Sys2Proof.Machine
end

