-- ==== Sys2Proof/Laws/State.lean ====
section
/-! SUPPORT. One lemma per field per update of the state records, so that no proof unfolds an update. -/

namespace Sys2Proof.Machine

/-! ### `State.withDrv` -/

@[simp] theorem State.withDrv_cfg (s : State) (d : Drv) : (s.withDrv d).cfg = s.cfg := rfl
@[simp] theorem State.withDrv_drv (s : State) (d : Drv) : (s.withDrv d).drv = d := rfl
@[simp] theorem State.withDrv_dec (s : State) (d : Drv) : (s.withDrv d).dec = s.dec := rfl
@[simp] theorem State.withDrv_inp (s : State) (d : Drv) : (s.withDrv d).inp = s.inp := rfl
@[simp] theorem State.withDrv_inputs (s : State) (d : Drv) : (s.withDrv d).inputs = s.inputs := rfl
@[simp] theorem State.withDrv_freeCount (s : State) (d : Drv) : (s.withDrv d).freeCount = s.freeCount := rfl

/-! ### `State.withDec` -/

@[simp] theorem State.withDec_cfg (s : State) (d : Dec) : (s.withDec d).cfg = s.cfg := rfl
@[simp] theorem State.withDec_drv (s : State) (d : Dec) : (s.withDec d).drv = s.drv := rfl
@[simp] theorem State.withDec_dec (s : State) (d : Dec) : (s.withDec d).dec = d := rfl
@[simp] theorem State.withDec_inp (s : State) (d : Dec) : (s.withDec d).inp = s.inp := rfl
@[simp] theorem State.withDec_inputs (s : State) (d : Dec) : (s.withDec d).inputs = s.inputs := rfl
@[simp] theorem State.withDec_freeCount (s : State) (d : Dec) : (s.withDec d).freeCount = s.freeCount := rfl

/-! ### `Drv.respond` -/

@[simp] theorem Drv.respond_configured (d : Drv) (st : Status) : (d.respond st).configured = d.configured := rfl
@[simp] theorem Drv.respond_digitCount (d : Drv) (st : Status) : (d.respond st).digitCount = d.digitCount := rfl
@[simp] theorem Drv.respond_active (d : Drv) (st : Status) : (d.respond st).active = d.active := rfl
@[simp] theorem Drv.respond_intensity (d : Drv) (st : Status) : (d.respond st).intensity = d.intensity := rfl
@[simp] theorem Drv.respond_addrMode (d : Drv) (st : Status) : (d.respond st).addrMode = d.addrMode := rfl
@[simp] theorem Drv.respond_text (d : Drv) (st : Status) : (d.respond st).text = d.text := rfl
@[simp] theorem Drv.respond_busy (d : Drv) (st : Status) : (d.respond st).busy = true := rfl
@[simp] theorem Drv.respond_seq (d : Drv) (st : Status) : (d.respond st).seq = d.seq := rfl
@[simp] theorem Drv.respond_seqStatus (d : Drv) (st : Status) : (d.respond st).seqStatus = st := rfl
@[simp] theorem Drv.respond_settle (d : Drv) (st : Status) : (d.respond st).settle = d.settle := rfl
@[simp] theorem Drv.respond_settling (d : Drv) (st : Status) : (d.respond st).settling = d.settling := rfl
@[simp] theorem Drv.respond_stb (d : Drv) (st : Status) : (d.respond st).stb = d.stb := rfl
@[simp] theorem Drv.respond_clk (d : Drv) (st : Status) : (d.respond st).clk = d.clk := rfl
@[simp] theorem Drv.respond_dio (d : Drv) (st : Status) : (d.respond st).dio = d.dio := rfl
@[simp] theorem Drv.respond_rspValid (d : Drv) (st : Status) : (d.respond st).rspValid = d.rspValid := rfl
@[simp] theorem Drv.respond_rspStatus (d : Drv) (st : Status) : (d.respond st).rspStatus = d.rspStatus := rfl
@[simp] theorem Drv.respond_wire (d : Drv) (st : Status) : (d.respond st).wire = d.wire := rfl
@[simp] theorem Drv.respond_shadow (d : Drv) (st : Status) : (d.respond st).shadow = d.shadow := rfl

/-! ### `Drv.raise` -/

@[simp] theorem Drv.raise_configured (d : Drv) (st : Status) : (d.raise st).configured = d.configured := rfl
@[simp] theorem Drv.raise_digitCount (d : Drv) (st : Status) : (d.raise st).digitCount = d.digitCount := rfl
@[simp] theorem Drv.raise_active (d : Drv) (st : Status) : (d.raise st).active = d.active := rfl
@[simp] theorem Drv.raise_intensity (d : Drv) (st : Status) : (d.raise st).intensity = d.intensity := rfl
@[simp] theorem Drv.raise_addrMode (d : Drv) (st : Status) : (d.raise st).addrMode = d.addrMode := rfl
@[simp] theorem Drv.raise_text (d : Drv) (st : Status) : (d.raise st).text = d.text := rfl
@[simp] theorem Drv.raise_busy (d : Drv) (st : Status) : (d.raise st).busy = true := rfl
@[simp] theorem Drv.raise_seq (d : Drv) (st : Status) : (d.raise st).seq = d.seq := rfl
@[simp] theorem Drv.raise_seqStatus (d : Drv) (st : Status) : (d.raise st).seqStatus = st := rfl
@[simp] theorem Drv.raise_settle (d : Drv) (st : Status) : (d.raise st).settle = d.settle := rfl
@[simp] theorem Drv.raise_settling (d : Drv) (st : Status) : (d.raise st).settling = d.settling := rfl
@[simp] theorem Drv.raise_stb (d : Drv) (st : Status) : (d.raise st).stb = d.stb := rfl
@[simp] theorem Drv.raise_clk (d : Drv) (st : Status) : (d.raise st).clk = d.clk := rfl
@[simp] theorem Drv.raise_dio (d : Drv) (st : Status) : (d.raise st).dio = d.dio := rfl
@[simp] theorem Drv.raise_rspValid (d : Drv) (st : Status) : (d.raise st).rspValid = d.rspValid := rfl
@[simp] theorem Drv.raise_rspStatus (d : Drv) (st : Status) : (d.raise st).rspStatus = d.rspStatus := rfl
@[simp] theorem Drv.raise_wire (d : Drv) (st : Status) : (d.raise st).wire = d.wire := rfl
@[simp] theorem Drv.raise_shadow (d : Drv) (st : Status) : (d.raise st).shadow = d.shadow := rfl

/-! ### `Drv.enqueue` -/

@[simp] theorem Drv.enqueue_configured (d : Drv) (ws : List SeqWrite) : (d.enqueue ws).configured = d.configured := rfl
@[simp] theorem Drv.enqueue_digitCount (d : Drv) (ws : List SeqWrite) : (d.enqueue ws).digitCount = d.digitCount := rfl
@[simp] theorem Drv.enqueue_active (d : Drv) (ws : List SeqWrite) : (d.enqueue ws).active = d.active := rfl
@[simp] theorem Drv.enqueue_intensity (d : Drv) (ws : List SeqWrite) : (d.enqueue ws).intensity = d.intensity := rfl
@[simp] theorem Drv.enqueue_addrMode (d : Drv) (ws : List SeqWrite) : (d.enqueue ws).addrMode = d.addrMode := rfl
@[simp] theorem Drv.enqueue_text (d : Drv) (ws : List SeqWrite) : (d.enqueue ws).text = d.text := rfl
@[simp] theorem Drv.enqueue_busy (d : Drv) (ws : List SeqWrite) : (d.enqueue ws).busy = d.busy := rfl
@[simp] theorem Drv.enqueue_seq (d : Drv) (ws : List SeqWrite) : (d.enqueue ws).seq = d.seq ++ ws := rfl
@[simp] theorem Drv.enqueue_seqStatus (d : Drv) (ws : List SeqWrite) : (d.enqueue ws).seqStatus = d.seqStatus := rfl
@[simp] theorem Drv.enqueue_settle (d : Drv) (ws : List SeqWrite) : (d.enqueue ws).settle = d.settle := rfl
@[simp] theorem Drv.enqueue_settling (d : Drv) (ws : List SeqWrite) : (d.enqueue ws).settling = d.settling := rfl
@[simp] theorem Drv.enqueue_stb (d : Drv) (ws : List SeqWrite) : (d.enqueue ws).stb = d.stb := rfl
@[simp] theorem Drv.enqueue_clk (d : Drv) (ws : List SeqWrite) : (d.enqueue ws).clk = d.clk := rfl
@[simp] theorem Drv.enqueue_dio (d : Drv) (ws : List SeqWrite) : (d.enqueue ws).dio = d.dio := rfl
@[simp] theorem Drv.enqueue_rspValid (d : Drv) (ws : List SeqWrite) : (d.enqueue ws).rspValid = d.rspValid := rfl
@[simp] theorem Drv.enqueue_rspStatus (d : Drv) (ws : List SeqWrite) : (d.enqueue ws).rspStatus = d.rspStatus := rfl
@[simp] theorem Drv.enqueue_wire (d : Drv) (ws : List SeqWrite) : (d.enqueue ws).wire = d.wire := rfl
@[simp] theorem Drv.enqueue_shadow (d : Drv) (ws : List SeqWrite) : (d.enqueue ws).shadow = d.shadow := rfl

/-! ### `Drv.memWrite` -/

@[simp] theorem Drv.memWrite_configured (d : Drv) (i : Fin textLen) (v : Byte) : (d.memWrite i v).configured = d.configured := rfl
@[simp] theorem Drv.memWrite_digitCount (d : Drv) (i : Fin textLen) (v : Byte) : (d.memWrite i v).digitCount = d.digitCount := rfl
@[simp] theorem Drv.memWrite_active (d : Drv) (i : Fin textLen) (v : Byte) : (d.memWrite i v).active = d.active := rfl
@[simp] theorem Drv.memWrite_intensity (d : Drv) (i : Fin textLen) (v : Byte) : (d.memWrite i v).intensity = d.intensity := rfl
@[simp] theorem Drv.memWrite_addrMode (d : Drv) (i : Fin textLen) (v : Byte) : (d.memWrite i v).addrMode = d.addrMode := rfl
@[simp] theorem Drv.memWrite_text (d : Drv) (i : Fin textLen) (v : Byte) : (d.memWrite i v).text = textWrite d.text i.val v := rfl
@[simp] theorem Drv.memWrite_busy (d : Drv) (i : Fin textLen) (v : Byte) : (d.memWrite i v).busy = d.busy := rfl
@[simp] theorem Drv.memWrite_seq (d : Drv) (i : Fin textLen) (v : Byte) : (d.memWrite i v).seq = d.seq := rfl
@[simp] theorem Drv.memWrite_seqStatus (d : Drv) (i : Fin textLen) (v : Byte) : (d.memWrite i v).seqStatus = d.seqStatus := rfl
@[simp] theorem Drv.memWrite_settle (d : Drv) (i : Fin textLen) (v : Byte) : (d.memWrite i v).settle = d.settle := rfl
@[simp] theorem Drv.memWrite_settling (d : Drv) (i : Fin textLen) (v : Byte) : (d.memWrite i v).settling = d.settling := rfl
@[simp] theorem Drv.memWrite_stb (d : Drv) (i : Fin textLen) (v : Byte) : (d.memWrite i v).stb = d.stb := rfl
@[simp] theorem Drv.memWrite_clk (d : Drv) (i : Fin textLen) (v : Byte) : (d.memWrite i v).clk = d.clk := rfl
@[simp] theorem Drv.memWrite_dio (d : Drv) (i : Fin textLen) (v : Byte) : (d.memWrite i v).dio = d.dio := rfl
@[simp] theorem Drv.memWrite_rspValid (d : Drv) (i : Fin textLen) (v : Byte) : (d.memWrite i v).rspValid = d.rspValid := rfl
@[simp] theorem Drv.memWrite_rspStatus (d : Drv) (i : Fin textLen) (v : Byte) : (d.memWrite i v).rspStatus = d.rspStatus := rfl
@[simp] theorem Drv.memWrite_wire (d : Drv) (i : Fin textLen) (v : Byte) : (d.memWrite i v).wire = d.wire := rfl
@[simp] theorem Drv.memWrite_shadow (d : Drv) (i : Fin textLen) (v : Byte) : (d.memWrite i v).shadow = d.shadow := rfl

/-! ### `Drv.lockOut` -/

@[simp] theorem Drv.lockOut_configured (d : Drv) : (d.lockOut).configured = false := rfl
@[simp] theorem Drv.lockOut_digitCount (d : Drv) : (d.lockOut).digitCount = d.digitCount := rfl
@[simp] theorem Drv.lockOut_active (d : Drv) : (d.lockOut).active = d.active := rfl
@[simp] theorem Drv.lockOut_intensity (d : Drv) : (d.lockOut).intensity = d.intensity := rfl
@[simp] theorem Drv.lockOut_addrMode (d : Drv) : (d.lockOut).addrMode = d.addrMode := rfl
@[simp] theorem Drv.lockOut_text (d : Drv) : (d.lockOut).text = d.text := rfl
@[simp] theorem Drv.lockOut_busy (d : Drv) : (d.lockOut).busy = d.busy := rfl
@[simp] theorem Drv.lockOut_seq (d : Drv) : (d.lockOut).seq = d.seq := rfl
@[simp] theorem Drv.lockOut_seqStatus (d : Drv) : (d.lockOut).seqStatus = d.seqStatus := rfl
@[simp] theorem Drv.lockOut_settle (d : Drv) : (d.lockOut).settle = d.settle := rfl
@[simp] theorem Drv.lockOut_settling (d : Drv) : (d.lockOut).settling = d.settling := rfl
@[simp] theorem Drv.lockOut_stb (d : Drv) : (d.lockOut).stb = d.stb := rfl
@[simp] theorem Drv.lockOut_clk (d : Drv) : (d.lockOut).clk = d.clk := rfl
@[simp] theorem Drv.lockOut_dio (d : Drv) : (d.lockOut).dio = d.dio := rfl
@[simp] theorem Drv.lockOut_rspValid (d : Drv) : (d.lockOut).rspValid = d.rspValid := rfl
@[simp] theorem Drv.lockOut_rspStatus (d : Drv) : (d.lockOut).rspStatus = d.rspStatus := rfl
@[simp] theorem Drv.lockOut_wire (d : Drv) : (d.lockOut).wire = d.wire := rfl
@[simp] theorem Drv.lockOut_shadow (d : Drv) : (d.lockOut).shadow = d.shadow := rfl

/-! ### `Drv.pulse` -/

@[simp] theorem Drv.pulse_configured (d : Drv) : (d.pulse).configured = d.configured := rfl
@[simp] theorem Drv.pulse_digitCount (d : Drv) : (d.pulse).digitCount = d.digitCount := rfl
@[simp] theorem Drv.pulse_active (d : Drv) : (d.pulse).active = d.active := rfl
@[simp] theorem Drv.pulse_intensity (d : Drv) : (d.pulse).intensity = d.intensity := rfl
@[simp] theorem Drv.pulse_addrMode (d : Drv) : (d.pulse).addrMode = d.addrMode := rfl
@[simp] theorem Drv.pulse_text (d : Drv) : (d.pulse).text = d.text := rfl
@[simp] theorem Drv.pulse_busy (d : Drv) : (d.pulse).busy = d.busy := rfl
@[simp] theorem Drv.pulse_seq (d : Drv) : (d.pulse).seq = d.seq := rfl
@[simp] theorem Drv.pulse_seqStatus (d : Drv) : (d.pulse).seqStatus = d.seqStatus := rfl
@[simp] theorem Drv.pulse_settle (d : Drv) : (d.pulse).settle = 0 := rfl
@[simp] theorem Drv.pulse_settling (d : Drv) : (d.pulse).settling = d.settling := rfl
@[simp] theorem Drv.pulse_stb (d : Drv) : (d.pulse).stb = d.stb := rfl
@[simp] theorem Drv.pulse_clk (d : Drv) : (d.pulse).clk = d.clk := rfl
@[simp] theorem Drv.pulse_dio (d : Drv) : (d.pulse).dio = d.dio := rfl
@[simp] theorem Drv.pulse_rspValid (d : Drv) : (d.pulse).rspValid = true := rfl
@[simp] theorem Drv.pulse_rspStatus (d : Drv) : (d.pulse).rspStatus = d.seqStatus.code := rfl
@[simp] theorem Drv.pulse_wire (d : Drv) : (d.pulse).wire = d.wire := rfl
@[simp] theorem Drv.pulse_shadow (d : Drv) : (d.pulse).shadow = d.shadow := rfl

/-! ### `Drv.endPulse` -/

@[simp] theorem Drv.endPulse_configured (d : Drv) (k : Nat) : (d.endPulse k).configured = d.configured := rfl
@[simp] theorem Drv.endPulse_digitCount (d : Drv) (k : Nat) : (d.endPulse k).digitCount = d.digitCount := rfl
@[simp] theorem Drv.endPulse_active (d : Drv) (k : Nat) : (d.endPulse k).active = d.active := rfl
@[simp] theorem Drv.endPulse_intensity (d : Drv) (k : Nat) : (d.endPulse k).intensity = d.intensity := rfl
@[simp] theorem Drv.endPulse_addrMode (d : Drv) (k : Nat) : (d.endPulse k).addrMode = d.addrMode := rfl
@[simp] theorem Drv.endPulse_text (d : Drv) (k : Nat) : (d.endPulse k).text = d.text := rfl
@[simp] theorem Drv.endPulse_busy (d : Drv) (k : Nat) : (d.endPulse k).busy = d.busy := rfl
@[simp] theorem Drv.endPulse_seq (d : Drv) (k : Nat) : (d.endPulse k).seq = d.seq := rfl
@[simp] theorem Drv.endPulse_seqStatus (d : Drv) (k : Nat) : (d.endPulse k).seqStatus = d.seqStatus := rfl
@[simp] theorem Drv.endPulse_settle (d : Drv) (k : Nat) : (d.endPulse k).settle = d.settle := rfl
@[simp] theorem Drv.endPulse_settling (d : Drv) (k : Nat) : (d.endPulse k).settling = d.settling := rfl
@[simp] theorem Drv.endPulse_stb (d : Drv) (k : Nat) : (d.endPulse k).stb = d.stb := rfl
@[simp] theorem Drv.endPulse_clk (d : Drv) (k : Nat) : (d.endPulse k).clk = d.clk := rfl
@[simp] theorem Drv.endPulse_dio (d : Drv) (k : Nat) : (d.endPulse k).dio = d.dio := rfl
@[simp] theorem Drv.endPulse_rspValid (d : Drv) (k : Nat) : (d.endPulse k).rspValid = false := rfl
@[simp] theorem Drv.endPulse_rspStatus (d : Drv) (k : Nat) : (d.endPulse k).rspStatus = Config.idleRspStatus k := rfl
@[simp] theorem Drv.endPulse_wire (d : Drv) (k : Nat) : (d.endPulse k).wire = d.wire := rfl
@[simp] theorem Drv.endPulse_shadow (d : Drv) (k : Nat) : (d.endPulse k).shadow = d.shadow := rfl

/-! ### `Drv.finishExchange` -/

@[simp] theorem Drv.finishExchange_configured (d : Drv) : (d.finishExchange).configured = d.configured := rfl
@[simp] theorem Drv.finishExchange_digitCount (d : Drv) : (d.finishExchange).digitCount = d.digitCount := rfl
@[simp] theorem Drv.finishExchange_active (d : Drv) : (d.finishExchange).active = d.active := rfl
@[simp] theorem Drv.finishExchange_intensity (d : Drv) : (d.finishExchange).intensity = d.intensity := rfl
@[simp] theorem Drv.finishExchange_addrMode (d : Drv) : (d.finishExchange).addrMode = d.addrMode := rfl
@[simp] theorem Drv.finishExchange_text (d : Drv) : (d.finishExchange).text = d.text := rfl
@[simp] theorem Drv.finishExchange_busy (d : Drv) : (d.finishExchange).busy = d.busy := rfl
@[simp] theorem Drv.finishExchange_seq (d : Drv) : (d.finishExchange).seq = d.seq := rfl
@[simp] theorem Drv.finishExchange_seqStatus (d : Drv) : (d.finishExchange).seqStatus = d.seqStatus := rfl
@[simp] theorem Drv.finishExchange_settle (d : Drv) : (d.finishExchange).settle = d.settle := rfl
@[simp] theorem Drv.finishExchange_settling (d : Drv) : (d.finishExchange).settling = [] := rfl
@[simp] theorem Drv.finishExchange_stb (d : Drv) : (d.finishExchange).stb = d.stb := rfl
@[simp] theorem Drv.finishExchange_clk (d : Drv) : (d.finishExchange).clk = d.clk := rfl
@[simp] theorem Drv.finishExchange_dio (d : Drv) : (d.finishExchange).dio = d.dio := rfl
@[simp] theorem Drv.finishExchange_rspValid (d : Drv) : (d.finishExchange).rspValid = d.rspValid := rfl
@[simp] theorem Drv.finishExchange_rspStatus (d : Drv) : (d.finishExchange).rspStatus = d.rspStatus := rfl
@[simp] theorem Drv.finishExchange_wire (d : Drv) : (d.finishExchange).wire = d.wire := rfl
@[simp] theorem Drv.finishExchange_shadow (d : Drv) : (d.finishExchange).shadow = markShadow d.shadow d.settling := rfl

/-! ### `Drv.lineWrite` -/

@[simp] theorem Drv.lineWrite_configured (d : Drv) (l : Line) (b : Bool) : (d.lineWrite l b).configured = d.configured := by cases l <;> rfl
@[simp] theorem Drv.lineWrite_digitCount (d : Drv) (l : Line) (b : Bool) : (d.lineWrite l b).digitCount = d.digitCount := by cases l <;> rfl
@[simp] theorem Drv.lineWrite_active (d : Drv) (l : Line) (b : Bool) : (d.lineWrite l b).active = d.active := by cases l <;> rfl
@[simp] theorem Drv.lineWrite_intensity (d : Drv) (l : Line) (b : Bool) : (d.lineWrite l b).intensity = d.intensity := by cases l <;> rfl
@[simp] theorem Drv.lineWrite_addrMode (d : Drv) (l : Line) (b : Bool) : (d.lineWrite l b).addrMode = d.addrMode := by cases l <;> rfl
@[simp] theorem Drv.lineWrite_text (d : Drv) (l : Line) (b : Bool) : (d.lineWrite l b).text = d.text := by cases l <;> rfl
@[simp] theorem Drv.lineWrite_busy (d : Drv) (l : Line) (b : Bool) : (d.lineWrite l b).busy = d.busy := by cases l <;> rfl
@[simp] theorem Drv.lineWrite_seq (d : Drv) (l : Line) (b : Bool) : (d.lineWrite l b).seq = d.seq := by cases l <;> rfl
@[simp] theorem Drv.lineWrite_seqStatus (d : Drv) (l : Line) (b : Bool) : (d.lineWrite l b).seqStatus = d.seqStatus := by cases l <;> rfl
@[simp] theorem Drv.lineWrite_settle (d : Drv) (l : Line) (b : Bool) : (d.lineWrite l b).settle = d.settle := by cases l <;> rfl
@[simp] theorem Drv.lineWrite_settling (d : Drv) (l : Line) (b : Bool) : (d.lineWrite l b).settling = d.settling := by cases l <;> rfl
@[simp] theorem Drv.lineWrite_stb (d : Drv) (l : Line) (b : Bool) : (d.lineWrite l b).stb = if l = .stb then b else d.stb := by cases l <;> rfl
@[simp] theorem Drv.lineWrite_clk (d : Drv) (l : Line) (b : Bool) : (d.lineWrite l b).clk = if l = .clk then b else d.clk := by cases l <;> rfl
@[simp] theorem Drv.lineWrite_dio (d : Drv) (l : Line) (b : Bool) : (d.lineWrite l b).dio = if l = .dio then b else d.dio := by cases l <;> rfl
@[simp] theorem Drv.lineWrite_rspValid (d : Drv) (l : Line) (b : Bool) : (d.lineWrite l b).rspValid = d.rspValid := by cases l <;> rfl
@[simp] theorem Drv.lineWrite_rspStatus (d : Drv) (l : Line) (b : Bool) : (d.lineWrite l b).rspStatus = d.rspStatus := by cases l <;> rfl
@[simp] theorem Drv.lineWrite_wire (d : Drv) (l : Line) (b : Bool) : (d.lineWrite l b).wire = d.wire ++ [(l, b)] := by cases l <;> rfl
@[simp] theorem Drv.lineWrite_shadow (d : Drv) (l : Line) (b : Bool) : (d.lineWrite l b).shadow = d.shadow := by cases l <;> rfl

/-! ### `Drv.perform` -/

@[simp] theorem Drv.perform_configured (d : Drv) (w : SeqWrite) : (d.perform w).configured = d.configured := by cases w with | mk l b m => cases l <;> rfl
@[simp] theorem Drv.perform_digitCount (d : Drv) (w : SeqWrite) : (d.perform w).digitCount = d.digitCount := by cases w with | mk l b m => cases l <;> rfl
@[simp] theorem Drv.perform_active (d : Drv) (w : SeqWrite) : (d.perform w).active = d.active := by cases w with | mk l b m => cases l <;> rfl
@[simp] theorem Drv.perform_intensity (d : Drv) (w : SeqWrite) : (d.perform w).intensity = d.intensity := by cases w with | mk l b m => cases l <;> rfl
@[simp] theorem Drv.perform_addrMode (d : Drv) (w : SeqWrite) : (d.perform w).addrMode = d.addrMode := by cases w with | mk l b m => cases l <;> rfl
@[simp] theorem Drv.perform_text (d : Drv) (w : SeqWrite) : (d.perform w).text = d.text := by cases w with | mk l b m => cases l <;> rfl
@[simp] theorem Drv.perform_busy (d : Drv) (w : SeqWrite) : (d.perform w).busy = d.busy := by cases w with | mk l b m => cases l <;> rfl
@[simp] theorem Drv.perform_seq (d : Drv) (w : SeqWrite) : (d.perform w).seq = d.seq := by cases w with | mk l b m => cases l <;> rfl
@[simp] theorem Drv.perform_seqStatus (d : Drv) (w : SeqWrite) : (d.perform w).seqStatus = d.seqStatus := by cases w with | mk l b m => cases l <;> rfl
@[simp] theorem Drv.perform_settle (d : Drv) (w : SeqWrite) : (d.perform w).settle = d.settle := by cases w with | mk l b m => cases l <;> rfl
@[simp] theorem Drv.perform_settling (d : Drv) (w : SeqWrite) : (d.perform w).settling = w.marks := by cases w with | mk l b m => cases l <;> rfl
@[simp] theorem Drv.perform_stb (d : Drv) (w : SeqWrite) : (d.perform w).stb = if w.line = .stb then w.level else d.stb := by cases w with | mk l b m => cases l <;> rfl
@[simp] theorem Drv.perform_clk (d : Drv) (w : SeqWrite) : (d.perform w).clk = if w.line = .clk then w.level else d.clk := by cases w with | mk l b m => cases l <;> rfl
@[simp] theorem Drv.perform_dio (d : Drv) (w : SeqWrite) : (d.perform w).dio = if w.line = .dio then w.level else d.dio := by cases w with | mk l b m => cases l <;> rfl
@[simp] theorem Drv.perform_rspValid (d : Drv) (w : SeqWrite) : (d.perform w).rspValid = d.rspValid := by cases w with | mk l b m => cases l <;> rfl
@[simp] theorem Drv.perform_rspStatus (d : Drv) (w : SeqWrite) : (d.perform w).rspStatus = d.rspStatus := by cases w with | mk l b m => cases l <;> rfl
@[simp] theorem Drv.perform_wire (d : Drv) (w : SeqWrite) : (d.perform w).wire = d.wire ++ [w.entry] := by cases w with | mk l b m => cases l <;> rfl
@[simp] theorem Drv.perform_shadow (d : Drv) (w : SeqWrite) : (d.perform w).shadow = markShadow d.shadow d.settling := by cases w with | mk l b m => cases l <;> rfl

/-! ### `Drv.writeSeg` -/

@[simp] theorem Drv.writeSeg_configured (d : Drv) (cfg : Config) (p : Nat) (c : SegCode) : (d.writeSeg cfg p c).configured = d.configured := rfl
@[simp] theorem Drv.writeSeg_digitCount (d : Drv) (cfg : Config) (p : Nat) (c : SegCode) : (d.writeSeg cfg p c).digitCount = d.digitCount := rfl
@[simp] theorem Drv.writeSeg_active (d : Drv) (cfg : Config) (p : Nat) (c : SegCode) : (d.writeSeg cfg p c).active = d.active := rfl
@[simp] theorem Drv.writeSeg_intensity (d : Drv) (cfg : Config) (p : Nat) (c : SegCode) : (d.writeSeg cfg p c).intensity = d.intensity := rfl
@[simp] theorem Drv.writeSeg_addrMode (d : Drv) (cfg : Config) (p : Nat) (c : SegCode) : (d.writeSeg cfg p c).addrMode = writeSegMode cfg := rfl
@[simp] theorem Drv.writeSeg_text (d : Drv) (cfg : Config) (p : Nat) (c : SegCode) : (d.writeSeg cfg p c).text = d.text := rfl
@[simp] theorem Drv.writeSeg_busy (d : Drv) (cfg : Config) (p : Nat) (c : SegCode) : (d.writeSeg cfg p c).busy = d.busy := rfl
@[simp] theorem Drv.writeSeg_seq (d : Drv) (cfg : Config) (p : Nat) (c : SegCode) : (d.writeSeg cfg p c).seq = d.seq ++ exchange cfg (writeSegCommand cfg) (addrByte cfg p :: dataBytes cfg c) [(p, c)] := rfl
@[simp] theorem Drv.writeSeg_seqStatus (d : Drv) (cfg : Config) (p : Nat) (c : SegCode) : (d.writeSeg cfg p c).seqStatus = d.seqStatus := rfl
@[simp] theorem Drv.writeSeg_settle (d : Drv) (cfg : Config) (p : Nat) (c : SegCode) : (d.writeSeg cfg p c).settle = d.settle := rfl
@[simp] theorem Drv.writeSeg_settling (d : Drv) (cfg : Config) (p : Nat) (c : SegCode) : (d.writeSeg cfg p c).settling = d.settling := rfl
@[simp] theorem Drv.writeSeg_stb (d : Drv) (cfg : Config) (p : Nat) (c : SegCode) : (d.writeSeg cfg p c).stb = d.stb := rfl
@[simp] theorem Drv.writeSeg_clk (d : Drv) (cfg : Config) (p : Nat) (c : SegCode) : (d.writeSeg cfg p c).clk = d.clk := rfl
@[simp] theorem Drv.writeSeg_dio (d : Drv) (cfg : Config) (p : Nat) (c : SegCode) : (d.writeSeg cfg p c).dio = d.dio := rfl
@[simp] theorem Drv.writeSeg_rspValid (d : Drv) (cfg : Config) (p : Nat) (c : SegCode) : (d.writeSeg cfg p c).rspValid = d.rspValid := rfl
@[simp] theorem Drv.writeSeg_rspStatus (d : Drv) (cfg : Config) (p : Nat) (c : SegCode) : (d.writeSeg cfg p c).rspStatus = d.rspStatus := rfl
@[simp] theorem Drv.writeSeg_wire (d : Drv) (cfg : Config) (p : Nat) (c : SegCode) : (d.writeSeg cfg p c).wire = d.wire := rfl
@[simp] theorem Drv.writeSeg_shadow (d : Drv) (cfg : Config) (p : Nat) (c : SegCode) : (d.writeSeg cfg p c).shadow = d.shadow := rfl

/-! ### `Drv.clearBurst` -/

@[simp] theorem Drv.clearBurst_configured (d : Drv) (cfg : Config) : (d.clearBurst cfg).configured = d.configured := rfl
@[simp] theorem Drv.clearBurst_digitCount (d : Drv) (cfg : Config) : (d.clearBurst cfg).digitCount = d.digitCount := rfl
@[simp] theorem Drv.clearBurst_active (d : Drv) (cfg : Config) : (d.clearBurst cfg).active = d.active := rfl
@[simp] theorem Drv.clearBurst_intensity (d : Drv) (cfg : Config) : (d.clearBurst cfg).intensity = d.intensity := rfl
@[simp] theorem Drv.clearBurst_addrMode (d : Drv) (cfg : Config) : (d.clearBurst cfg).addrMode = .autoinc := rfl
@[simp] theorem Drv.clearBurst_text (d : Drv) (cfg : Config) : (d.clearBurst cfg).text = d.text := rfl
@[simp] theorem Drv.clearBurst_busy (d : Drv) (cfg : Config) : (d.clearBurst cfg).busy = d.busy := rfl
@[simp] theorem Drv.clearBurst_seq (d : Drv) (cfg : Config) : (d.clearBurst cfg).seq = d.seq ++ exchange cfg cfg.cmdDataAutoinc
      (cfg.addrBase :: List.replicate (2 * d.digitCount.toNat) 0x00#8)
      ((List.range d.digitCount.toNat).map (fun p => (p, blankCode))) := rfl
@[simp] theorem Drv.clearBurst_seqStatus (d : Drv) (cfg : Config) : (d.clearBurst cfg).seqStatus = d.seqStatus := rfl
@[simp] theorem Drv.clearBurst_settle (d : Drv) (cfg : Config) : (d.clearBurst cfg).settle = d.settle := rfl
@[simp] theorem Drv.clearBurst_settling (d : Drv) (cfg : Config) : (d.clearBurst cfg).settling = d.settling := rfl
@[simp] theorem Drv.clearBurst_stb (d : Drv) (cfg : Config) : (d.clearBurst cfg).stb = d.stb := rfl
@[simp] theorem Drv.clearBurst_clk (d : Drv) (cfg : Config) : (d.clearBurst cfg).clk = d.clk := rfl
@[simp] theorem Drv.clearBurst_dio (d : Drv) (cfg : Config) : (d.clearBurst cfg).dio = d.dio := rfl
@[simp] theorem Drv.clearBurst_rspValid (d : Drv) (cfg : Config) : (d.clearBurst cfg).rspValid = d.rspValid := rfl
@[simp] theorem Drv.clearBurst_rspStatus (d : Drv) (cfg : Config) : (d.clearBurst cfg).rspStatus = d.rspStatus := rfl
@[simp] theorem Drv.clearBurst_wire (d : Drv) (cfg : Config) : (d.clearBurst cfg).wire = d.wire := rfl
@[simp] theorem Drv.clearBurst_shadow (d : Drv) (cfg : Config) : (d.clearBurst cfg).shadow = d.shadow := rfl

/-! ### `Dec.emitTurn` -/

@[simp] theorem Dec.emitTurn_lastLevel (d : Dec) (dir : Bool) (token : Token) : (d.emitTurn dir token).lastLevel = d.lastLevel := rfl
@[simp] theorem Dec.emitTurn_pendingClicks (d : Dec) (dir : Bool) (token : Token) : (d.emitTurn dir token).pendingClicks = d.pendingClicks := rfl
@[simp] theorem Dec.emitTurn_turnBound (d : Dec) (dir : Bool) (token : Token) : (d.emitTurn dir token).turnBound = d.turnBound := rfl
@[simp] theorem Dec.emitTurn_turnToken (d : Dec) (dir : Bool) (token : Token) : (d.emitTurn dir token).turnToken = d.turnToken := rfl
@[simp] theorem Dec.emitTurn_pressBound (d : Dec) (dir : Bool) (token : Token) : (d.emitTurn dir token).pressBound = d.pressBound := rfl
@[simp] theorem Dec.emitTurn_pressToken (d : Dec) (dir : Bool) (token : Token) : (d.emitTurn dir token).pressToken = d.pressToken := rfl
@[simp] theorem Dec.emitTurn_turnActive (d : Dec) (dir : Bool) (token : Token) : (d.emitTurn dir token).turnActive = true := rfl
@[simp] theorem Dec.emitTurn_pressActive (d : Dec) (dir : Bool) (token : Token) : (d.emitTurn dir token).pressActive = d.pressActive := rfl
@[simp] theorem Dec.emitTurn_aPend (d : Dec) (dir : Bool) (token : Token) : (d.emitTurn dir token).aPend = d.aPend := rfl
@[simp] theorem Dec.emitTurn_swPend (d : Dec) (dir : Bool) (token : Token) : (d.emitTurn dir token).swPend = d.swPend := rfl
@[simp] theorem Dec.emitTurn_aPrev (d : Dec) (dir : Bool) (token : Token) : (d.emitTurn dir token).aPrev = d.aPrev := rfl
@[simp] theorem Dec.emitTurn_swPrev (d : Dec) (dir : Bool) (token : Token) : (d.emitTurn dir token).swPrev = d.swPrev := rfl
@[simp] theorem Dec.emitTurn_aSync (d : Dec) (dir : Bool) (token : Token) : (d.emitTurn dir token).aSync = d.aSync := rfl
@[simp] theorem Dec.emitTurn_bSync (d : Dec) (dir : Bool) (token : Token) : (d.emitTurn dir token).bSync = d.bSync := rfl
@[simp] theorem Dec.emitTurn_swSync (d : Dec) (dir : Bool) (token : Token) : (d.emitTurn dir token).swSync = d.swSync := rfl
@[simp] theorem Dec.emitTurn_turnValid (d : Dec) (dir : Bool) (token : Token) : (d.emitTurn dir token).turnValid = true := rfl
@[simp] theorem Dec.emitTurn_turnDir (d : Dec) (dir : Bool) (token : Token) : (d.emitTurn dir token).turnDir = dir := rfl
@[simp] theorem Dec.emitTurn_turnTokenOut (d : Dec) (dir : Bool) (token : Token) : (d.emitTurn dir token).turnTokenOut = token := rfl
@[simp] theorem Dec.emitTurn_pressValid (d : Dec) (dir : Bool) (token : Token) : (d.emitTurn dir token).pressValid = d.pressValid := rfl
@[simp] theorem Dec.emitTurn_pressTokenOut (d : Dec) (dir : Bool) (token : Token) : (d.emitTurn dir token).pressTokenOut = d.pressTokenOut := rfl

/-! ### `Dec.emitPress` -/

@[simp] theorem Dec.emitPress_lastLevel (d : Dec) (token : Token) : (d.emitPress token).lastLevel = d.lastLevel := rfl
@[simp] theorem Dec.emitPress_pendingClicks (d : Dec) (token : Token) : (d.emitPress token).pendingClicks = d.pendingClicks := rfl
@[simp] theorem Dec.emitPress_turnBound (d : Dec) (token : Token) : (d.emitPress token).turnBound = d.turnBound := rfl
@[simp] theorem Dec.emitPress_turnToken (d : Dec) (token : Token) : (d.emitPress token).turnToken = d.turnToken := rfl
@[simp] theorem Dec.emitPress_pressBound (d : Dec) (token : Token) : (d.emitPress token).pressBound = d.pressBound := rfl
@[simp] theorem Dec.emitPress_pressToken (d : Dec) (token : Token) : (d.emitPress token).pressToken = d.pressToken := rfl
@[simp] theorem Dec.emitPress_turnActive (d : Dec) (token : Token) : (d.emitPress token).turnActive = d.turnActive := rfl
@[simp] theorem Dec.emitPress_pressActive (d : Dec) (token : Token) : (d.emitPress token).pressActive = true := rfl
@[simp] theorem Dec.emitPress_aPend (d : Dec) (token : Token) : (d.emitPress token).aPend = d.aPend := rfl
@[simp] theorem Dec.emitPress_swPend (d : Dec) (token : Token) : (d.emitPress token).swPend = d.swPend := rfl
@[simp] theorem Dec.emitPress_aPrev (d : Dec) (token : Token) : (d.emitPress token).aPrev = d.aPrev := rfl
@[simp] theorem Dec.emitPress_swPrev (d : Dec) (token : Token) : (d.emitPress token).swPrev = d.swPrev := rfl
@[simp] theorem Dec.emitPress_aSync (d : Dec) (token : Token) : (d.emitPress token).aSync = d.aSync := rfl
@[simp] theorem Dec.emitPress_bSync (d : Dec) (token : Token) : (d.emitPress token).bSync = d.bSync := rfl
@[simp] theorem Dec.emitPress_swSync (d : Dec) (token : Token) : (d.emitPress token).swSync = d.swSync := rfl
@[simp] theorem Dec.emitPress_turnValid (d : Dec) (token : Token) : (d.emitPress token).turnValid = d.turnValid := rfl
@[simp] theorem Dec.emitPress_turnDir (d : Dec) (token : Token) : (d.emitPress token).turnDir = d.turnDir := rfl
@[simp] theorem Dec.emitPress_turnTokenOut (d : Dec) (token : Token) : (d.emitPress token).turnTokenOut = d.turnTokenOut := rfl
@[simp] theorem Dec.emitPress_pressValid (d : Dec) (token : Token) : (d.emitPress token).pressValid = true := rfl
@[simp] theorem Dec.emitPress_pressTokenOut (d : Dec) (token : Token) : (d.emitPress token).pressTokenOut = token := rfl

/-! ### `Dec.returnTurn` -/

@[simp] theorem Dec.returnTurn_lastLevel (d : Dec) : (d.returnTurn).lastLevel = d.lastLevel := rfl
@[simp] theorem Dec.returnTurn_pendingClicks (d : Dec) : (d.returnTurn).pendingClicks = d.pendingClicks := rfl
@[simp] theorem Dec.returnTurn_turnBound (d : Dec) : (d.returnTurn).turnBound = d.turnBound := rfl
@[simp] theorem Dec.returnTurn_turnToken (d : Dec) : (d.returnTurn).turnToken = d.turnToken := rfl
@[simp] theorem Dec.returnTurn_pressBound (d : Dec) : (d.returnTurn).pressBound = d.pressBound := rfl
@[simp] theorem Dec.returnTurn_pressToken (d : Dec) : (d.returnTurn).pressToken = d.pressToken := rfl
@[simp] theorem Dec.returnTurn_turnActive (d : Dec) : (d.returnTurn).turnActive = false := rfl
@[simp] theorem Dec.returnTurn_pressActive (d : Dec) : (d.returnTurn).pressActive = d.pressActive := rfl
@[simp] theorem Dec.returnTurn_aPend (d : Dec) : (d.returnTurn).aPend = d.aPend := rfl
@[simp] theorem Dec.returnTurn_swPend (d : Dec) : (d.returnTurn).swPend = d.swPend := rfl
@[simp] theorem Dec.returnTurn_aPrev (d : Dec) : (d.returnTurn).aPrev = d.aPrev := rfl
@[simp] theorem Dec.returnTurn_swPrev (d : Dec) : (d.returnTurn).swPrev = d.swPrev := rfl
@[simp] theorem Dec.returnTurn_aSync (d : Dec) : (d.returnTurn).aSync = d.aSync := rfl
@[simp] theorem Dec.returnTurn_bSync (d : Dec) : (d.returnTurn).bSync = d.bSync := rfl
@[simp] theorem Dec.returnTurn_swSync (d : Dec) : (d.returnTurn).swSync = d.swSync := rfl
@[simp] theorem Dec.returnTurn_turnValid (d : Dec) : (d.returnTurn).turnValid = d.turnValid := rfl
@[simp] theorem Dec.returnTurn_turnDir (d : Dec) : (d.returnTurn).turnDir = d.turnDir := rfl
@[simp] theorem Dec.returnTurn_turnTokenOut (d : Dec) : (d.returnTurn).turnTokenOut = d.turnTokenOut := rfl
@[simp] theorem Dec.returnTurn_pressValid (d : Dec) : (d.returnTurn).pressValid = d.pressValid := rfl
@[simp] theorem Dec.returnTurn_pressTokenOut (d : Dec) : (d.returnTurn).pressTokenOut = d.pressTokenOut := rfl

/-! ### `Dec.returnPress` -/

@[simp] theorem Dec.returnPress_lastLevel (d : Dec) : (d.returnPress).lastLevel = d.lastLevel := rfl
@[simp] theorem Dec.returnPress_pendingClicks (d : Dec) : (d.returnPress).pendingClicks = d.pendingClicks := rfl
@[simp] theorem Dec.returnPress_turnBound (d : Dec) : (d.returnPress).turnBound = d.turnBound := rfl
@[simp] theorem Dec.returnPress_turnToken (d : Dec) : (d.returnPress).turnToken = d.turnToken := rfl
@[simp] theorem Dec.returnPress_pressBound (d : Dec) : (d.returnPress).pressBound = d.pressBound := rfl
@[simp] theorem Dec.returnPress_pressToken (d : Dec) : (d.returnPress).pressToken = d.pressToken := rfl
@[simp] theorem Dec.returnPress_turnActive (d : Dec) : (d.returnPress).turnActive = d.turnActive := rfl
@[simp] theorem Dec.returnPress_pressActive (d : Dec) : (d.returnPress).pressActive = false := rfl
@[simp] theorem Dec.returnPress_aPend (d : Dec) : (d.returnPress).aPend = d.aPend := rfl
@[simp] theorem Dec.returnPress_swPend (d : Dec) : (d.returnPress).swPend = d.swPend := rfl
@[simp] theorem Dec.returnPress_aPrev (d : Dec) : (d.returnPress).aPrev = d.aPrev := rfl
@[simp] theorem Dec.returnPress_swPrev (d : Dec) : (d.returnPress).swPrev = d.swPrev := rfl
@[simp] theorem Dec.returnPress_aSync (d : Dec) : (d.returnPress).aSync = d.aSync := rfl
@[simp] theorem Dec.returnPress_bSync (d : Dec) : (d.returnPress).bSync = d.bSync := rfl
@[simp] theorem Dec.returnPress_swSync (d : Dec) : (d.returnPress).swSync = d.swSync := rfl
@[simp] theorem Dec.returnPress_turnValid (d : Dec) : (d.returnPress).turnValid = d.turnValid := rfl
@[simp] theorem Dec.returnPress_turnDir (d : Dec) : (d.returnPress).turnDir = d.turnDir := rfl
@[simp] theorem Dec.returnPress_turnTokenOut (d : Dec) : (d.returnPress).turnTokenOut = d.turnTokenOut := rfl
@[simp] theorem Dec.returnPress_pressValid (d : Dec) : (d.returnPress).pressValid = d.pressValid := rfl
@[simp] theorem Dec.returnPress_pressTokenOut (d : Dec) : (d.returnPress).pressTokenOut = d.pressTokenOut := rfl

/-! ### `Dec.bindTurn` -/

@[simp] theorem Dec.bindTurn_lastLevel (d : Dec) (token : Token) : (d.bindTurn token).lastLevel = d.lastLevel := rfl
@[simp] theorem Dec.bindTurn_pendingClicks (d : Dec) (token : Token) : (d.bindTurn token).pendingClicks = d.pendingClicks := rfl
@[simp] theorem Dec.bindTurn_turnBound (d : Dec) (token : Token) : (d.bindTurn token).turnBound = true := rfl
@[simp] theorem Dec.bindTurn_turnToken (d : Dec) (token : Token) : (d.bindTurn token).turnToken = token := rfl
@[simp] theorem Dec.bindTurn_pressBound (d : Dec) (token : Token) : (d.bindTurn token).pressBound = d.pressBound := rfl
@[simp] theorem Dec.bindTurn_pressToken (d : Dec) (token : Token) : (d.bindTurn token).pressToken = d.pressToken := rfl
@[simp] theorem Dec.bindTurn_turnActive (d : Dec) (token : Token) : (d.bindTurn token).turnActive = d.turnActive := rfl
@[simp] theorem Dec.bindTurn_pressActive (d : Dec) (token : Token) : (d.bindTurn token).pressActive = d.pressActive := rfl
@[simp] theorem Dec.bindTurn_aPend (d : Dec) (token : Token) : (d.bindTurn token).aPend = d.aPend := rfl
@[simp] theorem Dec.bindTurn_swPend (d : Dec) (token : Token) : (d.bindTurn token).swPend = d.swPend := rfl
@[simp] theorem Dec.bindTurn_aPrev (d : Dec) (token : Token) : (d.bindTurn token).aPrev = d.aPrev := rfl
@[simp] theorem Dec.bindTurn_swPrev (d : Dec) (token : Token) : (d.bindTurn token).swPrev = d.swPrev := rfl
@[simp] theorem Dec.bindTurn_aSync (d : Dec) (token : Token) : (d.bindTurn token).aSync = d.aSync := rfl
@[simp] theorem Dec.bindTurn_bSync (d : Dec) (token : Token) : (d.bindTurn token).bSync = d.bSync := rfl
@[simp] theorem Dec.bindTurn_swSync (d : Dec) (token : Token) : (d.bindTurn token).swSync = d.swSync := rfl
@[simp] theorem Dec.bindTurn_turnValid (d : Dec) (token : Token) : (d.bindTurn token).turnValid = d.turnValid := rfl
@[simp] theorem Dec.bindTurn_turnDir (d : Dec) (token : Token) : (d.bindTurn token).turnDir = d.turnDir := rfl
@[simp] theorem Dec.bindTurn_turnTokenOut (d : Dec) (token : Token) : (d.bindTurn token).turnTokenOut = d.turnTokenOut := rfl
@[simp] theorem Dec.bindTurn_pressValid (d : Dec) (token : Token) : (d.bindTurn token).pressValid = d.pressValid := rfl
@[simp] theorem Dec.bindTurn_pressTokenOut (d : Dec) (token : Token) : (d.bindTurn token).pressTokenOut = d.pressTokenOut := rfl

/-! ### `Dec.bindPress` -/

@[simp] theorem Dec.bindPress_lastLevel (d : Dec) (token : Token) : (d.bindPress token).lastLevel = d.lastLevel := rfl
@[simp] theorem Dec.bindPress_pendingClicks (d : Dec) (token : Token) : (d.bindPress token).pendingClicks = d.pendingClicks := rfl
@[simp] theorem Dec.bindPress_turnBound (d : Dec) (token : Token) : (d.bindPress token).turnBound = d.turnBound := rfl
@[simp] theorem Dec.bindPress_turnToken (d : Dec) (token : Token) : (d.bindPress token).turnToken = d.turnToken := rfl
@[simp] theorem Dec.bindPress_pressBound (d : Dec) (token : Token) : (d.bindPress token).pressBound = true := rfl
@[simp] theorem Dec.bindPress_pressToken (d : Dec) (token : Token) : (d.bindPress token).pressToken = token := rfl
@[simp] theorem Dec.bindPress_turnActive (d : Dec) (token : Token) : (d.bindPress token).turnActive = d.turnActive := rfl
@[simp] theorem Dec.bindPress_pressActive (d : Dec) (token : Token) : (d.bindPress token).pressActive = d.pressActive := rfl
@[simp] theorem Dec.bindPress_aPend (d : Dec) (token : Token) : (d.bindPress token).aPend = d.aPend := rfl
@[simp] theorem Dec.bindPress_swPend (d : Dec) (token : Token) : (d.bindPress token).swPend = d.swPend := rfl
@[simp] theorem Dec.bindPress_aPrev (d : Dec) (token : Token) : (d.bindPress token).aPrev = d.aPrev := rfl
@[simp] theorem Dec.bindPress_swPrev (d : Dec) (token : Token) : (d.bindPress token).swPrev = d.swPrev := rfl
@[simp] theorem Dec.bindPress_aSync (d : Dec) (token : Token) : (d.bindPress token).aSync = d.aSync := rfl
@[simp] theorem Dec.bindPress_bSync (d : Dec) (token : Token) : (d.bindPress token).bSync = d.bSync := rfl
@[simp] theorem Dec.bindPress_swSync (d : Dec) (token : Token) : (d.bindPress token).swSync = d.swSync := rfl
@[simp] theorem Dec.bindPress_turnValid (d : Dec) (token : Token) : (d.bindPress token).turnValid = d.turnValid := rfl
@[simp] theorem Dec.bindPress_turnDir (d : Dec) (token : Token) : (d.bindPress token).turnDir = d.turnDir := rfl
@[simp] theorem Dec.bindPress_turnTokenOut (d : Dec) (token : Token) : (d.bindPress token).turnTokenOut = d.turnTokenOut := rfl
@[simp] theorem Dec.bindPress_pressValid (d : Dec) (token : Token) : (d.bindPress token).pressValid = d.pressValid := rfl
@[simp] theorem Dec.bindPress_pressTokenOut (d : Dec) (token : Token) : (d.bindPress token).pressTokenOut = d.pressTokenOut := rfl

/-! ### `Dec.shiftSync` -/

@[simp] theorem Dec.shiftSync_lastLevel (d : Dec) (p : Inputs) : (d.shiftSync p).lastLevel = d.lastLevel := rfl
@[simp] theorem Dec.shiftSync_pendingClicks (d : Dec) (p : Inputs) : (d.shiftSync p).pendingClicks = d.pendingClicks := rfl
@[simp] theorem Dec.shiftSync_turnBound (d : Dec) (p : Inputs) : (d.shiftSync p).turnBound = d.turnBound := rfl
@[simp] theorem Dec.shiftSync_turnToken (d : Dec) (p : Inputs) : (d.shiftSync p).turnToken = d.turnToken := rfl
@[simp] theorem Dec.shiftSync_pressBound (d : Dec) (p : Inputs) : (d.shiftSync p).pressBound = d.pressBound := rfl
@[simp] theorem Dec.shiftSync_pressToken (d : Dec) (p : Inputs) : (d.shiftSync p).pressToken = d.pressToken := rfl
@[simp] theorem Dec.shiftSync_turnActive (d : Dec) (p : Inputs) : (d.shiftSync p).turnActive = d.turnActive := rfl
@[simp] theorem Dec.shiftSync_pressActive (d : Dec) (p : Inputs) : (d.shiftSync p).pressActive = d.pressActive := rfl
@[simp] theorem Dec.shiftSync_aPend (d : Dec) (p : Inputs) : (d.shiftSync p).aPend = d.aPend := rfl
@[simp] theorem Dec.shiftSync_swPend (d : Dec) (p : Inputs) : (d.shiftSync p).swPend = d.swPend := rfl
@[simp] theorem Dec.shiftSync_aPrev (d : Dec) (p : Inputs) : (d.shiftSync p).aPrev = d.aPrev := rfl
@[simp] theorem Dec.shiftSync_swPrev (d : Dec) (p : Inputs) : (d.shiftSync p).swPrev = d.swPrev := rfl
@[simp] theorem Dec.shiftSync_aSync (d : Dec) (p : Inputs) : (d.shiftSync p).aSync = syncShift p.encA d.aSync := rfl
@[simp] theorem Dec.shiftSync_bSync (d : Dec) (p : Inputs) : (d.shiftSync p).bSync = syncShift p.encB d.bSync := rfl
@[simp] theorem Dec.shiftSync_swSync (d : Dec) (p : Inputs) : (d.shiftSync p).swSync = syncShift p.encSw d.swSync := rfl
@[simp] theorem Dec.shiftSync_turnValid (d : Dec) (p : Inputs) : (d.shiftSync p).turnValid = d.turnValid := rfl
@[simp] theorem Dec.shiftSync_turnDir (d : Dec) (p : Inputs) : (d.shiftSync p).turnDir = d.turnDir := rfl
@[simp] theorem Dec.shiftSync_turnTokenOut (d : Dec) (p : Inputs) : (d.shiftSync p).turnTokenOut = d.turnTokenOut := rfl
@[simp] theorem Dec.shiftSync_pressValid (d : Dec) (p : Inputs) : (d.shiftSync p).pressValid = d.pressValid := rfl
@[simp] theorem Dec.shiftSync_pressTokenOut (d : Dec) (p : Inputs) : (d.shiftSync p).pressTokenOut = d.pressTokenOut := rfl

/-! ### `Dec.endPulses` -/

@[simp] theorem Dec.endPulses_lastLevel (d : Dec) (k : Nat) : (d.endPulses k).lastLevel = d.lastLevel := rfl
@[simp] theorem Dec.endPulses_pendingClicks (d : Dec) (k : Nat) : (d.endPulses k).pendingClicks = d.pendingClicks := rfl
@[simp] theorem Dec.endPulses_turnBound (d : Dec) (k : Nat) : (d.endPulses k).turnBound = d.turnBound := rfl
@[simp] theorem Dec.endPulses_turnToken (d : Dec) (k : Nat) : (d.endPulses k).turnToken = d.turnToken := rfl
@[simp] theorem Dec.endPulses_pressBound (d : Dec) (k : Nat) : (d.endPulses k).pressBound = d.pressBound := rfl
@[simp] theorem Dec.endPulses_pressToken (d : Dec) (k : Nat) : (d.endPulses k).pressToken = d.pressToken := rfl
@[simp] theorem Dec.endPulses_turnActive (d : Dec) (k : Nat) : (d.endPulses k).turnActive = d.turnActive := rfl
@[simp] theorem Dec.endPulses_pressActive (d : Dec) (k : Nat) : (d.endPulses k).pressActive = d.pressActive := rfl
@[simp] theorem Dec.endPulses_aPend (d : Dec) (k : Nat) : (d.endPulses k).aPend = d.aPend := rfl
@[simp] theorem Dec.endPulses_swPend (d : Dec) (k : Nat) : (d.endPulses k).swPend = d.swPend := rfl
@[simp] theorem Dec.endPulses_aPrev (d : Dec) (k : Nat) : (d.endPulses k).aPrev = d.aPrev := rfl
@[simp] theorem Dec.endPulses_swPrev (d : Dec) (k : Nat) : (d.endPulses k).swPrev = d.swPrev := rfl
@[simp] theorem Dec.endPulses_aSync (d : Dec) (k : Nat) : (d.endPulses k).aSync = d.aSync := rfl
@[simp] theorem Dec.endPulses_bSync (d : Dec) (k : Nat) : (d.endPulses k).bSync = d.bSync := rfl
@[simp] theorem Dec.endPulses_swSync (d : Dec) (k : Nat) : (d.endPulses k).swSync = d.swSync := rfl
@[simp] theorem Dec.endPulses_turnValid (d : Dec) (k : Nat) : (d.endPulses k).turnValid = false := rfl
@[simp] theorem Dec.endPulses_turnDir (d : Dec) (k : Nat) : (d.endPulses k).turnDir = Config.idleTurnDir k := rfl
@[simp] theorem Dec.endPulses_turnTokenOut (d : Dec) (k : Nat) : (d.endPulses k).turnTokenOut = Config.idleTurnToken k := rfl
@[simp] theorem Dec.endPulses_pressValid (d : Dec) (k : Nat) : (d.endPulses k).pressValid = false := rfl
@[simp] theorem Dec.endPulses_pressTokenOut (d : Dec) (k : Nat) : (d.endPulses k).pressTokenOut = Config.idlePressToken k := rfl

/-! ### `State.endPulses` -/

@[simp] theorem State.endPulses_cfg (s : State) : (s.endPulses).cfg = s.cfg := rfl
@[simp] theorem State.endPulses_drv (s : State) : (s.endPulses).drv = s.drv.endPulse s.freeCount := rfl
@[simp] theorem State.endPulses_dec (s : State) : (s.endPulses).dec = s.dec.endPulses s.freeCount := rfl
@[simp] theorem State.endPulses_inp (s : State) : (s.endPulses).inp = s.inp := rfl
@[simp] theorem State.endPulses_inputs (s : State) : (s.endPulses).inputs = s.inputs := rfl
@[simp] theorem State.endPulses_freeCount (s : State) : (s.endPulses).freeCount = s.freeCount := rfl

/-! ### `State.advanceInputs` -/

@[simp] theorem State.advanceInputs_cfg (s t : State) : (s.advanceInputs t).cfg = t.cfg := rfl
@[simp] theorem State.advanceInputs_drv (s t : State) : (s.advanceInputs t).drv = t.drv := rfl
@[simp] theorem State.advanceInputs_dec (s t : State) : (s.advanceInputs t).dec = t.dec := rfl
@[simp] theorem State.advanceInputs_inp (s t : State) : (s.advanceInputs t).inp = s.nextInp := rfl
@[simp] theorem State.advanceInputs_inputs (s t : State) : (s.advanceInputs t).inputs = s.inputs.tail := rfl
@[simp] theorem State.advanceInputs_freeCount (s t : State) : (s.advanceInputs t).freeCount = s.freeCount + 1 := rfl

/-! ### `State.finishEdge` -/

@[simp] theorem State.finishEdge_cfg (s t : State) : (s.finishEdge t).cfg = t.cfg := rfl
@[simp] theorem State.finishEdge_drv (s t : State) : (s.finishEdge t).drv = t.drv := rfl
@[simp] theorem State.finishEdge_dec (s t : State) : (s.finishEdge t).dec = s.decoderEdge t.dec := rfl
@[simp] theorem State.finishEdge_inp (s t : State) : (s.finishEdge t).inp = s.nextInp := rfl
@[simp] theorem State.finishEdge_inputs (s t : State) : (s.finishEdge t).inputs = s.inputs.tail := rfl
@[simp] theorem State.finishEdge_freeCount (s t : State) : (s.finishEdge t).freeCount = s.freeCount + 1 := rfl

/-! ### `State.resetEdge` -/

@[simp] theorem State.resetEdge_cfg (s : State) : (s.resetEdge).cfg = s.cfg := rfl
@[simp] theorem State.resetEdge_drv (s : State) : (s.resetEdge).drv = Drv.reset := rfl
@[simp] theorem State.resetEdge_dec (s : State) : (s.resetEdge).dec = Dec.reset s.cfg.syncStages := rfl
@[simp] theorem State.resetEdge_inp (s : State) : (s.resetEdge).inp = s.nextInp := rfl
@[simp] theorem State.resetEdge_inputs (s : State) : (s.resetEdge).inputs = s.inputs.tail := rfl
@[simp] theorem State.resetEdge_freeCount (s : State) : (s.resetEdge).freeCount = s.freeCount + 1 := rfl

end Sys2Proof.Machine
end

