-- ==== Sys2Proof/Laws/Wire.lean ====
section
/-! SUPPORT. The laws of the serial protocol: the lengths of frames, the levels they leave, what the observer
reads off them, and the driver when its pending line writes have been performed. -/

namespace Sys2Proof.Machine

@[simp] theorem sendByte_length (b : Byte) : (sendByte b).length = 24 := rfl

theorem frame_length (bytes : List Byte) (marks : List (Nat × SegCode)) :
    (frame bytes marks).length = 2 + 24 * bytes.length := by
  have h : (bytes.flatMap sendByte).length = 24 * bytes.length := by
    induction bytes with
    | nil => rfl
    | cons b bs ih => simp only [List.flatMap_cons, List.length_append, sendByte_length, ih, List.length_cons]; omega
  simp only [frame, List.length_append, List.length_cons, List.length_nil, h]; omega

theorem levelAfter_append (l : Line) (xs ys : List SeqWrite) (b : Bool) :
    levelAfter l (xs ++ ys) b = levelAfter l ys (levelAfter l xs b) := by
  induction xs generalizing b with
  | nil => rfl
  | cons w xs ih => exact ih _

theorem levelAfter_stb_frame (bytes : List Byte) (marks : List (Nat × SegCode)) (b : Bool) :
    levelAfter .stb (frame bytes marks) b = true := by
  simp [frame, levelAfter, levelAfter_append]

theorem levelAfter_clk_sendByte (x : Byte) (b : Bool) : levelAfter .clk (sendByte x) b = true := by
  simp [sendByte, sendBit, plainWrite, levelAfter]

theorem levelAfter_clk_frame (bytes : List Byte) (marks : List (Nat × SegCode)) :
    levelAfter .clk (frame bytes marks) true = true := by
  have h : levelAfter .clk (bytes.flatMap sendByte) true = true := by
    induction bytes with
    | nil => rfl
    | cons x xs ih => simp [levelAfter_append, levelAfter_clk_sendByte, ih]
  simp [frame, levelAfter, levelAfter_append, plainWrite, h]

theorem Observer.seeAll_append (o : Observer) (xs ys : List (Line × Bool)) :
    o.seeAll (xs ++ ys) = (o.seeAll xs).bind (fun o' => o'.seeAll ys) := by
  induction xs generalizing o with
  | nil => rfl
  | cons e xs ih =>
    simp only [List.cons_append, Observer.seeAll, Option.bind_assoc]
    congr 1; funext o'; exact ih o'

/-- The bits of a byte in the order they are sent (R56). -/
def bitsOf (x : Byte) : List Bool := [0, 1, 2, 3, 4, 5, 6, 7].map (fun i => x.getLsbD i)

theorem seeAll_sendByte (x : Byte) (d : Bool) (bits : List Bool) (fs : List (List Byte)) :
    (⟨false, true, d, bits, fs⟩ : Observer).seeAll ((sendByte x).map SeqWrite.entry)
      = some ⟨false, true, x.getLsbD 7, bits ++ bitsOf x, fs⟩ := by
  simp [sendByte, sendBit, plainWrite, SeqWrite.entry, Observer.seeAll, Observer.see, bitsOf]

theorem byteOfBits_getLsbD (x : Byte) :
    byteOfBits (x.getLsbD 0) (x.getLsbD 1) (x.getLsbD 2) (x.getLsbD 3) (x.getLsbD 4) (x.getLsbD 5)
      (x.getLsbD 6) (x.getLsbD 7) = x := by
  revert x; decide

theorem bytesOfBits_bitsOf (bytes : List Byte) : bytesOfBits (bytes.flatMap bitsOf) = some bytes := by
  induction bytes with
  | nil => rfl
  | cons x xs ih =>
    show (bytesOfBits (xs.flatMap bitsOf)).map _ = _
    rw [ih, Option.map_some, byteOfBits_getLsbD]

theorem seeAll_bytes (bytes : List Byte) (d : Bool) (bits : List Bool) (fs : List (List Byte)) :
    ∃ d', (⟨false, true, d, bits, fs⟩ : Observer).seeAll ((bytes.flatMap sendByte).map SeqWrite.entry)
      = some ⟨false, true, d', bits ++ bytes.flatMap bitsOf, fs⟩ := by
  induction bytes generalizing d bits with
  | nil => exact ⟨d, by simp [Observer.seeAll]⟩
  | cons x xs ih =>
    obtain ⟨d', h⟩ := ih (x.getLsbD 7) (bits ++ bitsOf x)
    refine ⟨d', ?_⟩
    simp only [List.flatMap_cons, List.map_append, Observer.seeAll_append, seeAll_sendByte, Option.bind_some, h,
      List.append_assoc]

theorem seeAll_frame (bytes : List Byte) (marks : List (Nat × SegCode)) (d : Bool) (bits : List Bool)
    (fs : List (List Byte)) :
    ∃ d', (⟨true, true, d, bits, fs⟩ : Observer).seeAll ((frame bytes marks).map SeqWrite.entry)
      = some ⟨true, true, d', [], fs ++ [bytes]⟩ := by
  obtain ⟨d', h⟩ := seeAll_bytes bytes d [] fs
  refine ⟨d', ?_⟩
  have hsplit : (frame bytes marks).map SeqWrite.entry
      = (Line.stb, false) :: ((bytes.flatMap sendByte).map SeqWrite.entry ++ [(Line.stb, true)]) := by
    simp [frame, plainWrite, SeqWrite.entry]
  rw [hsplit]
  show Observer.seeAll ⟨false, true, d, [], fs⟩ _ = _
  rw [Observer.seeAll_append, h]
  simp [Observer.seeAll, Observer.see, bytesOfBits_bitsOf]

/-! ## Line writes that read as a list of frames -/

/-- From idle levels the observer reads the line writes as `frames` and is left at idle levels (R90, R97). -/
def ReadsAs (ws : List SeqWrite) (frames : List (List Byte)) : Prop :=
  ∀ (dio : Bool) (before : List (List Byte)), ∃ dio',
    (⟨true, true, dio, [], before⟩ : Observer).seeAll (ws.map SeqWrite.entry)
      = some ⟨true, true, dio', [], before ++ frames⟩

theorem ReadsAs.nil : ReadsAs [] [] := fun dio before => ⟨dio, by simp [Observer.seeAll]⟩

theorem ReadsAs.append {ws ws' : List SeqWrite} {fs fs' : List (List Byte)} (h : ReadsAs ws fs)
    (h' : ReadsAs ws' fs') : ReadsAs (ws ++ ws') (fs ++ fs') := by
  intro dio before
  obtain ⟨d1, h1⟩ := h dio before
  obtain ⟨d2, h2⟩ := h' d1 (before ++ fs)
  exact ⟨d2, by rw [List.map_append, Observer.seeAll_append, h1, Option.bind_some, h2, List.append_assoc]⟩

theorem ReadsAs.frame (bytes : List Byte) (marks : List (Nat × SegCode)) :
    ReadsAs (frame bytes marks) [bytes] :=
  fun dio before => seeAll_frame bytes marks dio [] before

theorem ReadsAs.exchange (cfg : Config) (c : Byte) (rest : List Byte) (marks : List (Nat × SegCode)) :
    ReadsAs (exchange cfg c rest marks) (exchangeFrames cfg c rest) := by
  unfold Machine.exchange exchangeFrames
  split
  · exact ReadsAs.frame _ _
  · split
    · exact (ReadsAs.frame [c] []).append (ReadsAs.frame rest marks)
    · exact ReadsAs.frame _ _

theorem ReadsAs.position (cfg : Config) (p : Nat) (s : SegCode) (marks : List (Nat × SegCode)) :
    ReadsAs (Machine.exchange cfg (writeSegCommand cfg) (addrByte cfg p :: dataBytes cfg s) marks)
      (positionFrames cfg p s) := by
  have h := ReadsAs.exchange cfg (writeSegCommand cfg) (addrByte cfg p :: dataBytes cfg s) marks
  unfold positionFrames
  unfold writeSegCommand dataBytes at *
  split <;> simp_all

/-- What `framesOf` gives for pending line writes. -/
theorem ReadsAs.pendingFrames {ws : List SeqWrite} {fs : List (List Byte)} (h : ReadsAs ws fs) :
    pendingFrames ws = some fs := by
  obtain ⟨d, hd⟩ := h false []
  show (Observer.seeAll ⟨true, true, false, [], []⟩ _).map _ = _
  rw [hd]; rfl

/-! ## Levels after an exchange (R90) -/

theorem levelAfter_stb_exchange (cfg : Config) (c : Byte) (rest : List Byte) (marks : List (Nat × SegCode))
    (b : Bool) : levelAfter .stb (exchange cfg c rest marks) b = true := by
  unfold exchange
  repeat' split
  all_goals simp [levelAfter_append, levelAfter_stb_frame]

theorem levelAfter_clk_exchange (cfg : Config) (c : Byte) (rest : List Byte) (marks : List (Nat × SegCode)) :
    levelAfter .clk (exchange cfg c rest marks) true = true := by
  unfold exchange
  repeat' split
  all_goals simp [levelAfter_append, levelAfter_clk_frame]

/-! ## The marks of an exchange, and draining -/

theorem marks_frame (bytes : List Byte) (marks : List (Nat × SegCode)) :
    (frame bytes marks).flatMap SeqWrite.marks = marks := by
  have h : (bytes.flatMap sendByte).flatMap SeqWrite.marks = [] := by
    induction bytes with
    | nil => rfl
    | cons b bs ih => simp [ih, sendByte, sendBit, plainWrite]
  simp [frame, plainWrite, h]

theorem marks_exchange (cfg : Config) (c : Byte) (rest : List Byte) (marks : List (Nat × SegCode)) :
    (exchange cfg c rest marks).flatMap SeqWrite.marks = marks := by
  unfold exchange
  repeat' split
  all_goals simp [marks_frame]

theorem markShadow_append (v : Vector (Option SegCode) 6) (xs ys : List (Nat × SegCode)) :
    markShadow v (xs ++ ys) = markShadow (markShadow v xs) ys := by
  simp [markShadow]

/-- Performing line writes, each with its settle delay, in closed form. -/
theorem foldl_perform (ws : List SeqWrite) (d : Drv) :
    (ws.foldl (fun d w => d.perform w) d).finishExchange = { d with
      stb := levelAfter .stb ws d.stb
      clk := levelAfter .clk ws d.clk
      dio := levelAfter .dio ws d.dio
      wire := d.wire ++ ws.map SeqWrite.entry
      settling := []
      shadow := markShadow d.shadow (d.settling ++ ws.flatMap SeqWrite.marks) } := by
  induction ws generalizing d with
  | nil => simp [levelAfter, Drv.finishExchange]
  | cons w ws ih =>
    rw [List.foldl_cons, ih]
    obtain ⟨l, b, m⟩ := w
    cases l <;>
      simp [Drv.perform, Drv.finishExchange, Drv.lineWrite, levelAfter, SeqWrite.entry, markShadow_append]

/-- Draining, in closed form: every pending line write performed in order. -/
theorem Drv.drain_eq (d : Drv) : d.drain = { d with
      seq := []
      stb := levelAfter .stb d.seq d.stb
      clk := levelAfter .clk d.seq d.clk
      dio := levelAfter .dio d.seq d.dio
      wire := d.wire ++ d.seq.map SeqWrite.entry
      settling := []
      shadow := markShadow d.shadow (d.settling ++ d.seq.flatMap SeqWrite.marks) } := by
  rw [Drv.drain, foldl_perform]

end Sys2Proof.Machine
end

