-- ==== Sys2Proof/Laws/Display.lean ====
section
/-! SUPPORT. What the shared operations of the display commands do, each said once: ghost `shadow` after marks,
runs of position writes, the loop of `SETNUM`, the scan of `SETSTR`. -/

namespace Sys2Proof.Machine

/-- Ghost `shadow` after marks that give each position one code. -/
theorem markShadow_map (v : Vector (Option SegCode) 6) (ps : List Nat) (f : Nat → SegCode) (p : Nat)
    (hp : p < maxDigits) :
    (markShadow v (ps.map (fun q => (q, f q))))[p]? = if p ∈ ps then some (some (f p)) else v[p]? := by
  induction ps generalizing v with
  | nil => simp [markShadow]
  | cons q ps ih =>
    have hstep : markShadow v ((q :: ps).map (fun q => (q, f q)))
        = markShadow (v.setIfInBounds q (some (f q))) (ps.map (fun q => (q, f q))) := rfl
    rw [hstep, ih]
    by_cases hmem : p ∈ ps
    · simp [hmem]
    · by_cases hq : p = q
      · subst hq
        rw [if_neg hmem, if_pos List.mem_cons_self, Vector.getElem?_setIfInBounds_self, if_pos hp]
      · have hq' : ¬ q = p := fun h => hq h.symm
        simp [hmem, hq, hq']

/-- A run of position writes, in closed form. -/
theorem Drv.writeSegs_eq (cfg : Config) (cells : List (Nat × SegCode)) (d : Drv) :
    d.writeSegs cfg cells = { d with
      seq := d.seq ++ cells.flatMap (fun c =>
        exchange cfg (writeSegCommand cfg) (addrByte cfg c.1 :: dataBytes cfg c.2) [(c.1, c.2)])
      addrMode := if cells = [] then d.addrMode else writeSegMode cfg } := by
  induction cells generalizing d with
  | nil => simp [Drv.writeSegs]
  | cons c cells ih =>
    have hstep : d.writeSegs cfg (c :: cells) = (d.writeSeg cfg c.1 c.2).writeSegs cfg cells := rfl
    rw [hstep, ih]
    simp [Drv.writeSeg, Drv.enqueue]

theorem ReadsAs.cells (cfg : Config) (cells : List (Nat × SegCode)) :
    ReadsAs (cells.flatMap (fun c =>
        Machine.exchange cfg (writeSegCommand cfg) (addrByte cfg c.1 :: dataBytes cfg c.2) [(c.1, c.2)]))
      (cells.flatMap (fun c => positionFrames cfg c.1 c.2)) := by
  induction cells with
  | nil => exact ReadsAs.nil
  | cons c cells ih =>
    rw [List.flatMap_cons, List.flatMap_cons]
    exact (ReadsAs.position cfg c.1 c.2 _).append ih

theorem marks_cells (cfg : Config) (cells : List (Nat × SegCode)) :
    (cells.flatMap (fun c =>
        exchange cfg (writeSegCommand cfg) (addrByte cfg c.1 :: dataBytes cfg c.2) [(c.1, c.2)])).flatMap
      SeqWrite.marks = cells := by
  induction cells with
  | nil => rfl
  | cons c cells ih => rw [List.flatMap_cons, List.flatMap_append, marks_exchange, ih]; rfl

/-- The loop of `SETNUM` in closed form: with `n` positions left, the highest first, `v` the remaining quotient;
position `n - 1 - i` gets the digit of weight `10^i`. -/
theorem renderNumber_eq (cfg : Config) (dotMask : BitVec 6) (n : Nat) (first : Bool) (v : Nat) :
    renderNumber cfg dotMask n first v = (List.range n).reverse.map (fun p =>
      (p, withDp cfg
        (if (first = true ∧ n - 1 - p = 0) ∨ v / 10 ^ (n - 1 - p) > 0
          then fontHex cfg (decimalDigit (v / 10 ^ (n - 1 - p))) else 0#16)
        (dotMask.getLsbD p))) := by
  induction n generalizing first v with
  | zero => rfl
  | succ n ih =>
    rw [renderNumber, ih, List.range_succ, List.reverse_append, List.reverse_singleton, List.singleton_append,
      List.map_cons]
    congr 1
    · simp
    · apply List.map_congr_left
      intro p hp
      have hp : p < n := by simpa using hp
      have hk : n + 1 - 1 - p = (n - 1 - p) + 1 := by omega
      have hne : ¬ (first = true ∧ n - 1 - p + 1 = 0) := by omega
      have hdiv : v / 10 / 10 ^ (n - 1 - p) = v / 10 ^ (n - 1 - p + 1) := by
        rw [Nat.div_div_eq_div_mul, pow_succ, Nat.mul_comm]
      rw [hk, hdiv]
      simp only [Bool.false_eq_true, false_and, false_or, hne]

/-- The scan of `SETSTR` succeeds with codes, or meets an unmapped character (R107), from text index `n`. -/
theorem scanText_some {cfg : Config} {d : Drv} {room n : Nat} {codes : List SegCode}
    (h : scanText cfg d room n = some codes) :
    codes.length ≤ room ∧ n + codes.length ≤ max n textLen
    ∧ (∀ k c, codes[k]? = some c →
        textRead d.text (n + k) ≠ 0x00#8 ∧ fontChar cfg (textRead d.text (n + k)) = some c)
    ∧ (codes.length = room ∨ textLen ≤ n + codes.length ∨ textRead d.text (n + codes.length) = 0x00#8) := by
  induction room generalizing n codes with
  | zero => simp [scanText] at h; subst h; simp
  | succ room ih =>
    unfold scanText at h
    split at h
    · rename_i hn
      split at h
      · rename_i hz
        injection h with h; subst h
        exact ⟨by simp, by simp, by simp, .inr (.inr (by simpa [Drv.memRead] using hz))⟩
      · rename_i hz
        split at h
        · cases h
        · rename_i c hc
          cases hs : scanText cfg d room (n + 1) with
          | none => rw [hs] at h; cases h
          | some cs =>
            rw [hs] at h
            injection h with h; subst h
            obtain ⟨h1, h2, h3, h4⟩ := ih hs
            refine ⟨by simpa using h1, by simp only [List.length_cons]; omega, ?_, ?_⟩
            · intro k x hk
              cases k with
              | zero =>
                simp only [List.getElem?_cons_zero, Option.some.injEq] at hk
                subst hk
                exact ⟨by simpa [Drv.memRead] using hz, by simpa [Drv.memRead] using hc⟩
              | succ k =>
                have := h3 k x (by simpa using hk)
                rwa [show n + (k + 1) = n + 1 + k by omega]
            · rw [List.length_cons, show n + (cs.length + 1) = n + 1 + cs.length by omega]
              rcases h4 with h4 | h4 | h4
              · exact .inl (by omega)
              · exact .inr (.inl h4)
              · exact .inr (.inr h4)
    · injection h with h; subst h
      simp; omega

theorem scanText_none {cfg : Config} {d : Drv} {room n : Nat} (h : scanText cfg d room n = none) :
    ∃ k, k < room ∧ n + k < textLen ∧ (∀ j ≤ k, textRead d.text (n + j) ≠ 0x00#8)
      ∧ (∀ j < k, fontChar cfg (textRead d.text (n + j)) ≠ none)
      ∧ fontChar cfg (textRead d.text (n + k)) = none := by
  induction room generalizing n with
  | zero => cases h
  | succ room ih =>
    unfold scanText at h
    split at h
    · rename_i hn
      split at h
      · cases h
      · rename_i hz
        split at h
        · rename_i hc
          refine ⟨0, by omega, hn, ?_, by omega, by simpa [Drv.memRead] using hc⟩
          intro j hj
          obtain rfl : j = 0 := by omega
          simpa [Drv.memRead] using hz
        · rename_i c hc
          have hs : scanText cfg d room (n + 1) = none := by simpa using h
          obtain ⟨k, h1, h2, h3, h4, h5⟩ := ih hs
          refine ⟨k + 1, by omega, by omega, ?_, ?_, by rwa [show n + (k + 1) = n + 1 + k by omega]⟩
          · intro j hj
            cases j with
            | zero => simpa [Drv.memRead] using hz
            | succ j => rw [show n + (j + 1) = n + 1 + j by omega]; exact h3 j (by omega)
          · intro j hj
            cases j with
            | zero => rw [Nat.add_zero]; simp only [Drv.memRead] at hc; rw [hc]; simp
            | succ j => rw [show n + (j + 1) = n + 1 + j by omega]; exact h4 j (by omega)
    · cases h

/-- Positions from `start`, as a function of the position. -/
theorem cellsFrom_eq (start : Nat) (codes : List SegCode) :
    cellsFrom start codes
      = (List.range' start codes.length).map (fun p => (p, (codes[p - start]?).getD 0#16)) := by
  apply List.ext_getElem?
  intro k
  by_cases hk : k < codes.length
  · simp [cellsFrom, hk]
  · simp [cellsFrom, hk]

end Sys2Proof.Machine
end

