-- ==== Sys2Proof/Laws/Exec.lean ====
section
/-! SUPPORT. What any command can do at acceptance, said once: `Drv.Accepted` for the driver, `Dec.Commanded` for
the decoder, and `exec_next`, `exec_accepted`, `acceptWord_cases` for `exec` and the acceptance of a word. -/

namespace Sys2Proof.Machine

/-- Line writes that lead from idle levels to idle levels (R90). -/
def Balanced (ws : List SeqWrite) : Prop :=
  levelAfter .stb ws true = true ∧ levelAfter .clk ws true = true

theorem Balanced.nil : Balanced [] := ⟨rfl, rfl⟩

theorem Balanced.append {ws ws' : List SeqWrite} (h : Balanced ws) (h' : Balanced ws') : Balanced (ws ++ ws') :=
  ⟨by rw [levelAfter_append, h.1, h'.1], by rw [levelAfter_append, h.2, h'.2]⟩

theorem Balanced.exchange (cfg : Config) (c : Byte) (rest : List Byte) (marks : List (Nat × SegCode)) :
    Balanced (exchange cfg c rest marks) :=
  ⟨levelAfter_stb_exchange cfg c rest marks true, levelAfter_clk_exchange cfg c rest marks⟩

theorem Balanced.cells (cfg : Config) (cells : List (Nat × SegCode)) :
    Balanced (cells.flatMap (fun c =>
      Machine.exchange cfg (writeSegCommand cfg) (addrByte cfg c.1 :: dataBytes cfg c.2) [(c.1, c.2)])) := by
  induction cells with
  | nil => exact Balanced.nil
  | cons c cells ih => rw [List.flatMap_cons]; exact (Balanced.exchange _ _ _ _).append ih

/-- What the acceptance of any command does to the driver: it becomes busy with a status, balanced line writes
are placed behind those pending, the text buffer and the digit count stay legal, and everything the sequencer
owns is left alone. -/
structure Drv.Accepted (d d' : Drv) : Prop where
  busy : d'.busy = true
  seq : ∃ ws, d'.seq = d.seq ++ ws ∧ Balanced ws
  text : textWf d.text = true → textWf d'.text = true
  count : d.CountOk → d'.CountOk
  settle : d'.settle = d.settle
  settling : d'.settling = d.settling
  stb : d'.stb = d.stb
  clk : d'.clk = d.clk
  dio : d'.dio = d.dio
  rspValid : d'.rspValid = d.rspValid
  rspStatus : d'.rspStatus = d.rspStatus
  wire : d'.wire = d.wire
  shadow : d'.shadow = d.shadow

/-- A raised or silent command: nothing is placed. -/
theorem Drv.Accepted.respond (d : Drv) (st : Status) : d.Accepted (d.respond st) where
  busy := rfl
  seq := ⟨[], by simp, Balanced.nil⟩
  text h := h
  count h := h
  settle := rfl
  settling := rfl
  stb := rfl
  clk := rfl
  dio := rfl
  rspValid := rfl
  rspStatus := rfl
  wire := rfl
  shadow := rfl

theorem Drv.Accepted.raise (d : Drv) (st : Status) : d.Accepted (d.raise st) := Drv.Accepted.respond d st

theorem Drv.Accepted.gated {d body : Drv} (h : d.Accepted body) : d.Accepted (d.gated body) := by
  unfold Drv.gated
  split
  · exact h
  · exact Drv.Accepted.raise d _

theorem Drv.Accepted.unlessInvalid {d body : Drv} (invalid : Bool) (h : d.Accepted body) :
    d.Accepted (d.unlessInvalid invalid body) := by
  unfold Drv.unlessInvalid
  split
  · exact Drv.Accepted.raise d _
  · exact h

theorem Drv.configure_accepted (cfg : Config) (digits : Nat) (active : Bool) (intensity : Nat) (d : Drv) :
    d.Accepted (d.configure cfg digits active intensity) := by
  unfold Drv.configure
  split
  · rename_i h
    simp only [maxDigits] at h
    refine ⟨rfl, ⟨_, by simp only [Drv.respond_seq, Drv.enqueue_seq, Drv.clearBurst_seq, List.append_assoc]; rfl, ?_⟩,
      fun h => h, fun _ _ => ?_, rfl, rfl, rfl, rfl, rfl, rfl, rfl, rfl, rfl⟩
    · exact (Balanced.exchange _ _ _ _).append ((Balanced.exchange _ _ _ _).append (Balanced.exchange _ _ _ _))
    · simp only [Drv.respond_digitCount, Drv.enqueue_digitCount, Drv.clearBurst_digitCount, BitVec.toNat_ofNat,
        maxDigits]
      omega
  · refine ⟨rfl, ⟨[], by simp, Balanced.nil⟩, fun h => h, fun _ hc => ?_, rfl, rfl, rfl, rfl, rfl, rfl, rfl, rfl, rfl⟩
    simp at hc

theorem Drv.setBrightness_accepted (cfg : Config) (active : Bool) (intensity : Nat) (d : Drv) :
    d.Accepted (d.setBrightness cfg active intensity) :=
  Drv.Accepted.gated <| Drv.Accepted.unlessInvalid _
    ⟨rfl, ⟨_, rfl, Balanced.exchange _ _ _ _⟩, fun h => h, fun h => h, rfl, rfl, rfl, rfl, rfl, rfl, rfl, rfl, rfl⟩

theorem Drv.clearDisplay_accepted (cfg : Config) (d : Drv) : d.Accepted (d.clearDisplay cfg) :=
  Drv.Accepted.gated
    ⟨rfl, ⟨_, rfl, Balanced.exchange _ _ _ _⟩, fun h => h, fun h => h, rfl, rfl, rfl, rfl, rfl, rfl, rfl, rfl, rfl⟩

theorem Drv.setDigit_accepted (cfg : Config) (position value : Nat) (dp : Bool) (d : Drv) :
    d.Accepted (d.setDigit cfg position value dp) := by
  apply Drv.Accepted.gated
  apply Drv.Accepted.unlessInvalid
  split
  · exact ⟨rfl, ⟨_, rfl, Balanced.exchange _ _ _ _⟩, fun h => h, fun h => h, rfl, rfl, rfl, rfl, rfl, rfl, rfl, rfl, rfl⟩
  · exact Drv.Accepted.respond d _

theorem Drv.loadText_accepted (index : Nat) (char : Byte) (d : Drv) : d.Accepted (d.loadText index char) := by
  unfold Drv.loadText
  split
  · rename_i h
    exact ⟨rfl, ⟨[], by simp, Balanced.nil⟩, fun hw => textWf_textWrite hw h, fun h => h, rfl, rfl, rfl, rfl, rfl,
      rfl, rfl, rfl, rfl⟩
  · exact Drv.Accepted.raise d _

theorem Drv.writeSegs_accepted (cfg : Config) (cells : List (Nat × SegCode)) (st : Status) (d : Drv) :
    d.Accepted ((d.writeSegs cfg cells).respond st) := by
  rw [Drv.writeSegs_eq]
  exact ⟨rfl, ⟨_, rfl, Balanced.cells cfg cells⟩, fun h => h, fun h => h, rfl, rfl, rfl, rfl, rfl, rfl, rfl, rfl, rfl⟩

theorem Drv.setString_accepted (cfg : Config) (start : Nat) (d : Drv) : d.Accepted (d.setString cfg start) := by
  apply Drv.Accepted.gated
  apply Drv.Accepted.unlessInvalid
  split
  · exact Drv.Accepted.raise d _
  · exact Drv.writeSegs_accepted cfg _ _ d

theorem Drv.setNumber_accepted (cfg : Config) (value : Nat) (dotMask : BitVec 6) (d : Drv) :
    d.Accepted (d.setNumber cfg value dotMask) :=
  Drv.Accepted.gated (Drv.writeSegs_accepted cfg _ _ d)

/-- What the acceptance of a command does to the decoder: nothing, or what one of its four commands does. -/
inductive Dec.Commanded (d : Dec) : Option Instr → Dec → Prop where
  | none (i : Option Instr) (h : ∀ token, i ≠ some (.onturn token) ∧ i ≠ some (.onpress token))
      (ht : i ≠ some .tret) (hp : i ≠ some .pret) : Dec.Commanded d i d
  | bindTurn (token : Token) : Dec.Commanded d (some (.onturn token)) (d.bindTurn token)
  | bindPress (token : Token) : Dec.Commanded d (some (.onpress token)) (d.bindPress token)
  | returnTurn : Dec.Commanded d (some .tret) d.returnTurn
  | returnPress : Dec.Commanded d (some .pret) d.returnPress

/-- Every command completes; it changes the driver as `Drv.Accepted` says, the decoder as `Dec.Commanded` says,
and nothing else. -/
theorem exec_accepted (i : Instr) (s : State) :
    ∃ drv dec, exec i s = .next { s with drv := drv, dec := dec } ∧ s.drv.Accepted drv
      ∧ s.dec.Commanded (some i) dec := by
  cases i with
  | init digits active intensity =>
    exact ⟨_, _, rfl, Drv.configure_accepted _ _ _ _ _, .none _ (by simp) (by simp) (by simp)⟩
  | setdigit position value dp =>
    exact ⟨_, _, rfl, Drv.setDigit_accepted _ _ _ _ _, .none _ (by simp) (by simp) (by simp)⟩
  | ldtxt index char => exact ⟨_, _, rfl, Drv.loadText_accepted _ _ _, .none _ (by simp) (by simp) (by simp)⟩
  | setstr start => exact ⟨_, _, rfl, Drv.setString_accepted _ _ _, .none _ (by simp) (by simp) (by simp)⟩
  | setnum value dotMask =>
    exact ⟨_, _, rfl, Drv.setNumber_accepted _ _ _ _, .none _ (by simp) (by simp) (by simp)⟩
  | clear => exact ⟨_, _, rfl, Drv.clearDisplay_accepted _ _, .none _ (by simp) (by simp) (by simp)⟩
  | setbrt active intensity =>
    exact ⟨_, _, rfl, Drv.setBrightness_accepted _ _ _ _, .none _ (by simp) (by simp) (by simp)⟩
  | onturn token => exact ⟨_, _, rfl, Drv.Accepted.respond _ _, .bindTurn token⟩
  | onpress token => exact ⟨_, _, rfl, Drv.Accepted.respond _ _, .bindPress token⟩
  | tret => exact ⟨_, _, rfl, Drv.Accepted.respond _ _, .returnTurn⟩
  | pret => exact ⟨_, _, rfl, Drv.Accepted.respond _ _, .returnPress⟩

/-- The command a word encodes, if any. -/
def commandOf (w : Word) : Option Instr :=
  match decode w with
  | .ok i => some i
  | .error _ => none

/-- Every word, legal or not, is accepted with such a change. -/
theorem acceptWord_accepted (w : Word) (s : State) :
    ∃ drv dec, acceptWord w s = .next { s with drv := drv, dec := dec } ∧ s.drv.Accepted drv
      ∧ s.dec.Commanded (commandOf w) dec := by
  cases h : decode w with
  | ok i =>
    have ha : acceptWord w s = exec i s := by unfold acceptWord; rw [h]
    have hc : commandOf w = some i := by unfold commandOf; rw [h]
    rw [ha, hc]
    exact exec_accepted i s
  | error e =>
    have ha : acceptWord w s = .next (s.withDrv (s.drv.raise .illegalCommand)) := by unfold acceptWord; rw [h]
    have hc : commandOf w = none := by unfold commandOf; rw [h]
    rw [ha, hc]
    exact ⟨_, _, rfl, Drv.Accepted.raise _ _, .none _ (by simp) (by simp) (by simp)⟩

end Sys2Proof.Machine
end

