-- ==== Sys2Proof/Laws/Clock.lean ====
section
/-! SUPPORT. What a clock edge can do, said once (`step_cases`), and the parts it is made of: the sequencer, the
turn step, the two channels, the synchronisers. -/

namespace Sys2Proof.Machine

/-! ## The step -/

/-- The three edges: reset, the acceptance of a word, neither. -/
theorem step_cases {s t : State} (h : step s = .next t) :
    s.cfg.wf = true ∧
    ((s.inp.rst = true ∧ t = s.resetEdge)
    ∨ (s.inp.rst = false ∧ s.accepts = true ∧ ∃ drv dec,
        acceptWord s.inp.cmd s.endPulses = .next { s.endPulses with drv := drv, dec := dec }
        ∧ (s.drv.endPulse s.freeCount).Accepted drv
        ∧ (s.dec.endPulses s.freeCount).Commanded (commandOf s.inp.cmd) dec
        ∧ t = s.finishEdge { s.endPulses with drv := drv.respondAtOnce s.inp.hold, dec := dec })
    ∨ (s.inp.rst = false ∧ s.accepts = false ∧ t = s.idleEdge)) := by
  unfold step at h
  split at h
  · rename_i hwf
    refine ⟨hwf, ?_⟩
    unfold clockEdge at h
    split at h
    · rename_i hr
      exact .inl ⟨hr, by injection h with h; exact h.symm⟩
    · rename_i hr
      have hr : s.inp.rst = false := by simpa using hr
      split at h
      · rename_i ha
        obtain ⟨drv, dec, hw, hd, hc⟩ := acceptWord_accepted s.inp.cmd s.endPulses
        refine .inr (.inl ⟨hr, ha, drv, dec, hw, hd, hc, ?_⟩)
        unfold State.acceptEdge at h
        rw [hw] at h
        injection h with h
        exact h.symm
      · rename_i ha
        exact .inr (.inr ⟨hr, by simpa using ha, by injection h with h; exact h.symm⟩)
  · cases h

/-- A step never stops in a configuration that meets R10. -/
theorem step_next (s : State) (hwf : s.cfg.wf = true) : ∃ t, step s = .next t := by
  unfold step clockEdge State.acceptEdge
  rw [if_pos hwf]
  split
  · exact ⟨_, rfl⟩
  · split
    · obtain ⟨drv, dec, hw, _, _⟩ := acceptWord_accepted s.inp.cmd s.endPulses
      rw [hw]
      exact ⟨_, rfl⟩
    · exact ⟨_, rfl⟩

theorem step_cfg {s t : State} (h : step s = .next t) : t.cfg = s.cfg := by
  obtain ⟨_, ⟨_, rfl⟩ | ⟨_, _, _, _, _, _, _, rfl⟩ | ⟨_, _, rfl⟩⟩ := step_cases h <;> rfl

theorem step_inputs {s t : State} (h : step s = .next t) :
    t.inp = s.nextInp ∧ t.inputs = s.inputs.tail ∧ t.freeCount = s.freeCount + 1 := by
  obtain ⟨_, ⟨_, rfl⟩ | ⟨_, _, _, _, _, _, _, rfl⟩ | ⟨_, _, rfl⟩⟩ := step_cases h <;> exact ⟨rfl, rfl, rfl⟩

/-- An edge without reset is an edge that accepts nothing while the block is busy. -/
theorem step_busy {s t : State} (h : step s = .next t) (hr : s.inp.rst = false) (hb : s.drv.busy = true) :
    t = s.idleEdge := by
  obtain ⟨_, ⟨hr', _⟩ | ⟨_, ha, _⟩ | ⟨_, _, rfl⟩⟩ := step_cases h
  · rw [hr] at hr'; cases hr'
  · simp [State.accepts, State.cmdReady, hb] at ha
  · rfl

@[simp] theorem State.idleEdge_drv (s : State) : s.idleEdge.drv
    = (s.drv.endPulse s.freeCount).sequencer s.cfg s.inp.hold s.drv.rspValid := rfl

@[simp] theorem State.idleEdge_dec (s : State) :
    s.idleEdge.dec = s.decoderEdge (s.dec.endPulses s.freeCount) := rfl

/-! ## The sequencer -/

/-- Everything the sequencer can do at an edge: nothing, end the busy cycle of the response, let the settle delay
run, pulse the response, or perform one line write. -/
theorem Drv.sequencer_cases (cfg : Config) (hold responding : Bool) (d : Drv) :
    (d.sequencer cfg hold responding = d ∧ (d.busy = true → responding = false ∧ hold = true))
    ∨ (d.busy = true ∧ responding = true ∧ d.sequencer cfg hold responding = { d with busy := false })
    ∨ (d.busy = true ∧ responding = false ∧ hold = false ∧ d.settle > 1
        ∧ d.sequencer cfg hold responding = { d with settle := d.settle - 1 })
    ∨ (d.busy = true ∧ responding = false ∧ hold = false ∧ d.settle ≤ 1 ∧ d.seq = []
        ∧ d.sequencer cfg hold responding = d.finishExchange.pulse)
    ∨ (d.busy = true ∧ responding = false ∧ hold = false ∧ d.settle ≤ 1 ∧ ∃ w rest, d.seq = w :: rest
        ∧ d.sequencer cfg hold responding
          = { ({ d with seq := rest } : Drv).perform w with settle := cfg.settleTicks }) := by
  unfold Drv.sequencer
  cases hb : d.busy
  · exact .inl ⟨rfl, fun h => by cases h⟩
  · cases responding
    · cases hold
      · by_cases hs : d.settle > 1
        · exact .inr (.inr (.inl ⟨rfl, rfl, rfl, hs, by simp [hs]⟩))
        · have hs' : d.settle ≤ 1 := by omega
          cases hq : d.seq with
          | nil => exact .inr (.inr (.inr (.inl ⟨rfl, rfl, rfl, hs', rfl, by simp [hs, Drv.advance, hq]⟩)))
          | cons w rest =>
            exact .inr (.inr (.inr (.inr ⟨rfl, rfl, rfl, hs', w, rest, rfl, by simp [hs, Drv.advance, hq, hb]⟩)))
      · exact .inl ⟨rfl, fun _ => ⟨rfl, rfl⟩⟩
    · exact .inr (.inl ⟨rfl, rfl, rfl⟩)

/-- What the sequencer never writes: the registers of the commands and the status kept for the response. -/
theorem Drv.sequencer_keeps (cfg : Config) (hold responding : Bool) (d : Drv) :
    ∀ e, e = d.sequencer cfg hold responding →
      e.configured = d.configured ∧ e.digitCount = d.digitCount ∧ e.active = d.active ∧ e.intensity = d.intensity
      ∧ e.addrMode = d.addrMode ∧ e.text = d.text ∧ e.seqStatus = d.seqStatus := by
  rintro e rfl
  rcases Drv.sequencer_cases cfg hold responding d with
    ⟨h, _⟩ | ⟨_, _, h⟩ | ⟨_, _, _, _, h⟩ | ⟨_, _, _, _, _, h⟩ | ⟨_, _, _, _, w, rest, _, h⟩ <;> rw [h] <;> simp

/-- The response at the accepting edge touches the response port and the settle counter alone. -/
theorem Drv.respondAtOnce_keeps (hold : Bool) (d : Drv) :
    ∀ e, e = d.respondAtOnce hold →
      e = { d with rspValid := e.rspValid, rspStatus := e.rspStatus, settle := e.settle } := by
  rintro e rfl
  unfold Drv.respondAtOnce
  split <;> rfl

/-! ## The decoder -/

/-- Everything a turn step can do (R116, R117). -/
theorem Dec.turnStep_cases (threshold : Nat) (token : Token) (level : Bool) (d : Dec) :
    (level = d.lastLevel ∧ d.pendingClicks + 1 > threshold
      ∧ d.turnStep threshold token level = { d with
          pendingClicks := 0, lastLevel := level
          turnValid := true, turnDir := level, turnTokenOut := token, turnActive := true })
    ∨ (level = d.lastLevel ∧ d.pendingClicks + 1 ≤ threshold
      ∧ d.turnStep threshold token level = { d with pendingClicks := d.pendingClicks + 1, lastLevel := level })
    ∨ (level ≠ d.lastLevel
      ∧ d.turnStep threshold token level = { d with pendingClicks := 0, lastLevel := level }) := by
  by_cases hl : level = d.lastLevel
  · by_cases hc : d.pendingClicks + 1 > threshold
    · exact .inl ⟨hl, hc, by simp only [Dec.turnStep, if_pos hl, if_pos hc, Dec.emitTurn]⟩
    · exact .inr (.inl ⟨hl, by omega, by simp only [Dec.turnStep, if_pos hl, if_neg hc]⟩)
  · exact .inr (.inr ⟨hl, by simp only [Dec.turnStep, if_neg hl]⟩)

/-- The turn channel, by its two branches (R131). -/
theorem Dec.turnChannel_cases (threshold : Nat) (r : Sampled) (d : Dec) :
    ((d.aPend || (r.turnBound && d.aPrev && !r.aNow)) = true ∧ d.turnActive = false
      ∧ d.turnChannel threshold r
        = { ({ d with aPend := false } : Dec).turnStep threshold r.turnToken r.bNow with aPrev := r.aNow })
    ∨ (¬ ((d.aPend || (r.turnBound && d.aPrev && !r.aNow)) = true ∧ d.turnActive = false)
      ∧ d.turnChannel threshold r
        = { d with aPend := d.aPend || (r.turnBound && d.aPrev && !r.aNow), aPrev := r.aNow }) := by
  by_cases h : (d.aPend || (r.turnBound && d.aPrev && !r.aNow)) = true ∧ d.turnActive = false
  · refine .inl ⟨h.1, h.2, ?_⟩
    have hc : ((d.aPend || (r.turnBound && d.aPrev && !r.aNow)) && !d.turnActive) = true := by
      rw [h.1, h.2]; rfl
    simp only [Dec.turnChannel, hc, if_true]
  · refine .inr ⟨h, ?_⟩
    have hc : ¬ ((d.aPend || (r.turnBound && d.aPrev && !r.aNow)) && !d.turnActive) = true := by
      rw [Bool.and_eq_true, Bool.not_eq_true']; exact h
    simp only [Dec.turnChannel, if_neg hc]

/-- The button channel, by its two branches (R132). -/
theorem Dec.pressChannel_cases (r : Sampled) (d : Dec) :
    ((d.swPend || (r.pressBound && d.swPrev && !r.swNow)) = true ∧ d.pressActive = false
      ∧ d.pressChannel r = { d with
          swPend := false, pressValid := true, pressTokenOut := r.pressToken, pressActive := true
          swPrev := r.swNow })
    ∨ (¬ ((d.swPend || (r.pressBound && d.swPrev && !r.swNow)) = true ∧ d.pressActive = false)
      ∧ d.pressChannel r
        = { d with swPend := d.swPend || (r.pressBound && d.swPrev && !r.swNow), swPrev := r.swNow }) := by
  by_cases h : (d.swPend || (r.pressBound && d.swPrev && !r.swNow)) = true ∧ d.pressActive = false
  · refine .inl ⟨h.1, h.2, ?_⟩
    have hc : ((d.swPend || (r.pressBound && d.swPrev && !r.swNow)) && !d.pressActive) = true := by
      rw [h.1, h.2]; rfl
    simp only [Dec.pressChannel, hc, if_true, Dec.emitPress]
  · refine .inr ⟨h, ?_⟩
    have hc : ¬ ((d.swPend || (r.pressBound && d.swPrev && !r.swNow)) && !d.pressActive) = true := by
      rw [Bool.and_eq_true, Bool.not_eq_true']; exact h
    simp only [Dec.pressChannel, if_neg hc]

/-- What a turn step never writes: the bindings and the synchronisers. -/
theorem Dec.turnStep_keeps (threshold : Nat) (token : Token) (level : Bool) (d : Dec) :
    ∀ e, e = d.turnStep threshold token level →
      e.turnBound = d.turnBound ∧ e.turnToken = d.turnToken ∧ e.pressBound = d.pressBound
      ∧ e.pressToken = d.pressToken ∧ e.aSync = d.aSync ∧ e.bSync = d.bSync ∧ e.swSync = d.swSync := by
  rintro e rfl
  rcases d.turnStep_cases threshold token level with ⟨_, _, h⟩ | ⟨_, _, h⟩ | ⟨_, h⟩ <;> rw [h] <;> simp

/-- The decoder's edge keeps the bindings and shifts each synchroniser by its own pin (R31, R32, R130). -/
theorem State.decoderEdge_keeps (s : State) (d : Dec) :
    ∀ e, e = s.decoderEdge d →
      e.turnBound = d.turnBound ∧ e.turnToken = d.turnToken ∧ e.pressBound = d.pressBound
      ∧ e.pressToken = d.pressToken ∧ e.aSync = syncShift s.inp.encA d.aSync
      ∧ e.bSync = syncShift s.inp.encB d.bSync ∧ e.swSync = syncShift s.inp.encSw d.swSync := by
  rintro e rfl
  have hstep := Dec.turnStep_keeps s.cfg.threshold s.sampled.turnToken s.sampled.bNow
  unfold State.decoderEdge Dec.shiftSync
  rcases Dec.turnChannel_cases s.cfg.threshold s.sampled d with ⟨_, _, h⟩ | ⟨_, h⟩ <;>
    rcases Dec.pressChannel_cases s.sampled (d.turnChannel s.cfg.threshold s.sampled) with
      ⟨_, _, h'⟩ | ⟨_, h'⟩ <;>
    rw [h', h] <;> simp [hstep _ _ rfl]

/-- A command leaves the synchronisers alone. -/
theorem Dec.Commanded.sync {d d' : Dec} {i : Option Instr} (h : d.Commanded i d') :
    d'.aSync = d.aSync ∧ d'.bSync = d.bSync ∧ d'.swSync = d.swSync := by
  cases h <;> exact ⟨rfl, rfl, rfl⟩

@[simp] theorem syncShift_length (pin : Bool) (flops : List Bool) :
    (syncShift pin flops).length = flops.length := by
  simp [syncShift]

/-! ## The input ports -/

/-- The world at rest asserts neither reset nor hold. -/
@[simp] theorem Inputs.rest_rst (p : Inputs) (accepted : Bool) : (p.rest accepted).rst = false := rfl

@[simp] theorem Inputs.rest_hold (p : Inputs) (accepted : Bool) : (p.rest accepted).hold = false := rfl

/-- Without a scheduled reset the next cycle has none. -/
theorem noReset_next {s t : State} (h : s.NoReset) (hstep : step s = .next t) : t.NoReset := by
  obtain ⟨hi, hl, _⟩ := step_inputs hstep
  obtain ⟨_, hall⟩ := h
  unfold State.NoReset
  rw [hi, hl]
  unfold State.nextInp
  cases hq : s.inputs with
  | nil => exact ⟨rfl, rfl⟩
  | cons p ps => rw [hq] at hall; simpa using hall

/-! ## Runs -/

theorem run_succ {s t : State} (k : Nat) (h : step s = .next t) : run (k + 1) s = run k t := by
  rw [run, h]

/-- A run in two parts. -/
theorem run_add {s t : State} (a b : Nat) (h : run a s = .next t) : run (a + b) s = run b t := by
  induction a generalizing s with
  | zero => injection h with h; rw [h, Nat.zero_add]
  | succ a ih =>
    rw [run] at h
    split at h
    · rename_i u hu
      rw [Nat.add_right_comm, run_succ _ hu]
      exact ih h
    · cases h
    · cases h

end Sys2Proof.Machine
end

