-- ==== Sys2Proof/Laws/Decode.lean ====
section
/-! SUPPORT. Slices of a word as quotients and remainders, so that decoding facts are linear arithmetic. -/

namespace Sys2Proof

/-- A slice is a quotient's remainder. -/
theorem slice_eq (v : Word) (hi lo : Nat) : slice v hi lo = v.toNat / 2 ^ lo % 2 ^ (hi - lo + 1) := by
  simp [slice, BitVec.extractLsb, Nat.shiftRight_eq_div_pow]

theorem slice_lt (v : Word) (hi lo : Nat) : slice v hi lo < 2 ^ (hi - lo + 1) := by
  rw [slice_eq]; exact Nat.mod_lt _ (Nat.two_pow_pos _)

/-- `whenZero` gives a command exactly when every must-be-zero slice is zero. -/
theorem whenZero_ok {mbz : List Nat} {i j : Instr} :
    whenZero mbz i = .ok j ↔ mbz.all (fun n => n == 0) = true ∧ i = j := by
  unfold whenZero
  by_cases h : mbz.all (fun n => n == 0) = true
  · rw [if_pos h]
    exact ⟨fun e => ⟨h, by injection e⟩, fun e => by rw [e.2]⟩
  · rw [if_neg h]
    exact ⟨fun e => (by cases e), fun e => absurd e.1 h⟩

theorem whenZero_error {mbz : List Nat} {i : Instr} {e : Illegal} :
    whenZero mbz i = .error e ↔ mbz.all (fun n => n == 0) = false ∧ e = .mustBeZero := by
  unfold whenZero
  by_cases h : mbz.all (fun n => n == 0) = true
  · rw [if_pos h]
    exact ⟨fun e => (by cases e), fun e => by rw [h] at e; cases e.1⟩
  · rw [if_neg h]
    exact ⟨fun e => ⟨by simpa using h, by injection e with e; exact e.symm⟩, fun e => by rw [e.2]⟩

@[simp] theorem bitOf_toNat_bitField (b : Bool) : bitOf (bitField b).toNat = b := by
  cases b <;> rfl

/-! ## Concatenated fields -/

/-- The number a concatenation stands for. -/
theorem toNat_append_add {m n : Nat} (x : BitVec m) (y : BitVec n) :
    (x ++ y).toNat = x.toNat * 2 ^ n + y.toNat := by
  rw [BitVec.toNat_append, ← Nat.shiftLeft_add_eq_or_of_lt y.isLt, Nat.shiftLeft_eq]

/-- A mask over concatenated fields masks each field. -/
theorem and_append {m n : Nat} (x x' : BitVec m) (y y' : BitVec n) :
    (x ++ y) &&& (x' ++ y') = (x &&& x') ++ (y &&& y') := by
  apply BitVec.eq_of_getLsbD_eq
  intro i _
  simp only [BitVec.getLsbD_and, BitVec.getLsbD_append]
  split <;> rfl

theorem append_inj {m n : Nat} (x x' : BitVec m) (y y' : BitVec n) :
    x ++ y = x' ++ y' ↔ x = x' ∧ y = y' := by
  refine ⟨fun h => ⟨?_, ?_⟩, fun h => by rw [h.1, h.2]⟩
  · apply BitVec.eq_of_getLsbD_eq
    intro i _
    simpa [BitVec.getLsbD_append] using congrArg (fun v => v.getLsbD (n + i)) h
  · apply BitVec.eq_of_getLsbD_eq
    intro i hi
    simpa [BitVec.getLsbD_append, hi] using congrArg (fun v => v.getLsbD i) h

theorem bitField_lt (b : Bool) : (bitField b).toNat < 2 := (bitField b).isLt

/-! ## The formats of R72 as numbers -/

theorem formatC_toNat (op : BitVec 4) (digits intensity : Byte) (active : Bool) :
    (formatC op digits intensity active).toNat
      = op.toNat * 2 ^ 28 + digits.toNat * 2 ^ 16 + intensity.toNat * 2 ^ 8 + (bitField active).toNat := by
  simp only [formatC, toNat_append_add, BitVec.toNat_ofNat]; omega

theorem formatB_toNat (op : BitVec 4) (intensity : Byte) (active : Bool) :
    (formatB op intensity active).toNat
      = op.toNat * 2 ^ 28 + intensity.toNat * 2 ^ 8 + (bitField active).toNat := by
  simp only [formatB, toNat_append_add, BitVec.toNat_ofNat]; omega

theorem formatD_toNat (op : BitVec 4) (position value : Byte) (dp : Bool) :
    (formatD op position value dp).toNat
      = op.toNat * 2 ^ 28 + position.toNat * 2 ^ 16 + value.toNat * 2 ^ 8 + (bitField dp).toNat := by
  simp only [formatD, toNat_append_add, BitVec.toNat_ofNat]; omega

theorem formatT_toNat (op : BitVec 4) (index char : Byte) :
    (formatT op index char).toNat = op.toNat * 2 ^ 28 + index.toNat * 2 ^ 16 + char.toNat := by
  simp only [formatT, toNat_append_add, BitVec.toNat_ofNat]; omega

theorem formatS_toNat (op : BitVec 4) (start : Byte) :
    (formatS op start).toNat = op.toNat * 2 ^ 28 + start.toNat * 2 ^ 16 := by
  simp only [formatS, toNat_append_add, BitVec.toNat_ofNat]; omega

theorem formatH_toNat (op : BitVec 4) (token : Token) :
    (formatH op token).toNat = op.toNat * 2 ^ 28 + token.toNat := by
  simp only [formatH, toNat_append_add, BitVec.toNat_ofNat]; omega

theorem formatN_toNat (op : BitVec 4) (dotMask : BitVec 6) (value : BitVec 20) :
    (formatN op dotMask value).toNat = op.toNat * 2 ^ 28 + dotMask.toNat * 2 ^ 20 + value.toNat := by
  simp only [formatN, toNat_append_add, BitVec.toNat_ofNat]; omega

theorem formatZ_toNat (op : BitVec 4) : (formatZ op).toNat = op.toNat * 2 ^ 28 := by
  simp only [formatZ, toNat_append_add, BitVec.toNat_ofNat]; omega

end Sys2Proof
end

