-- ==== Sys2Proof/Laws/PerInstr.lean ====
section
/-! SUPPORT. What holds of every command as syntax, one lemma per constructor. -/

namespace Sys2Proof.Laws.EncodesItsOpcode

/-- The word of the command carries the opcode of the row of R73 that bears the command's mnemonic. -/
def Statement (i : Instr) : Prop :=
  ∃ r ∈ opcodeTable, r.mnemonic = i.mnemonic ∧ slice (encode i) 31 28 = slice r.matchBits 31 28

theorem init (digits : Nat) (active : Bool) (intensity : Nat) : Statement (.init digits active intensity) := by
  refine ⟨⟨"INIT", 0x10000000#32, 0xFF0000FE#32⟩, by simp [opcodeTable], rfl, ?_⟩
  have h := bitField_lt active
  rw [slice_eq, encode, formatC_toNat]; simp [slice]; omega

theorem setdigit (position value : Nat) (dp : Bool) : Statement (.setdigit position value dp) := by
  refine ⟨⟨"SETDIGIT", 0x20000000#32, 0xFF0000FE#32⟩, by simp [opcodeTable], rfl, ?_⟩
  have h := bitField_lt dp
  rw [slice_eq, encode, formatD_toNat]; simp [slice]; omega

theorem ldtxt (index : Nat) (char : Byte) : Statement (.ldtxt index char) := by
  refine ⟨⟨"LDTXT", 0x30000000#32, 0xFF00FF00#32⟩, by simp [opcodeTable], rfl, ?_⟩
  rw [slice_eq, encode, formatT_toNat]; simp [slice]; omega

theorem setstr (start : Nat) : Statement (.setstr start) := by
  refine ⟨⟨"SETSTR", 0x40000000#32, 0xFF00FFFF#32⟩, by simp [opcodeTable], rfl, ?_⟩
  rw [slice_eq, encode, formatS_toNat]; simp [slice]; omega

theorem setnum (value : Nat) (dotMask : BitVec 6) : Statement (.setnum value dotMask) := by
  refine ⟨⟨"SETNUM", 0x50000000#32, 0xFC000000#32⟩, by simp [opcodeTable], rfl, ?_⟩
  rw [slice_eq, encode, formatN_toNat]; simp [slice]; omega

theorem clear : Statement .clear :=
  ⟨⟨"CLEAR", 0x60000000#32, 0xFFFFFFFF#32⟩, by simp [opcodeTable], rfl, by decide⟩

theorem setbrt (active : Bool) (intensity : Nat) : Statement (.setbrt active intensity) := by
  refine ⟨⟨"SETBRT", 0x70000000#32, 0xFFFF00FE#32⟩, by simp [opcodeTable], rfl, ?_⟩
  have h := bitField_lt active
  rw [slice_eq, encode, formatB_toNat]; simp [slice]; omega

theorem onturn (token : Token) : Statement (.onturn token) := by
  refine ⟨⟨"ONTURN", 0x80000000#32, 0xFFFF0000#32⟩, by simp [opcodeTable], rfl, ?_⟩
  rw [slice_eq, encode, formatH_toNat]; simp [slice]; omega

theorem onpress (token : Token) : Statement (.onpress token) := by
  refine ⟨⟨"ONPRESS", 0x90000000#32, 0xFFFF0000#32⟩, by simp [opcodeTable], rfl, ?_⟩
  rw [slice_eq, encode, formatH_toNat]; simp [slice]; omega

theorem tret : Statement .tret :=
  ⟨⟨"TRET", 0xA0000000#32, 0xFFFFFFFF#32⟩, by simp [opcodeTable], rfl, by decide⟩

theorem pret : Statement .pret :=
  ⟨⟨"PRET", 0xB0000000#32, 0xFFFFFFFF#32⟩, by simp [opcodeTable], rfl, by decide⟩

end Sys2Proof.Laws.EncodesItsOpcode
end

