-- ==== Sys2Proof/Tests/Slice0.lean ====
section
/-! SUPPORT. The model's own tests, each a small theorem. Expected values come from the vectors of
`95_test_vectors.md` (named in the docstrings) or from the rule cited, worked by hand. Then a witness for the
hypotheses of every obligation that has any, clause by clause. -/

namespace Sys2Proof.Tests

open Sys2Proof.Machine

/-! ## Helpers -/

/-- The outcome is a next state that passes the test. -/
def after (o : Host.Outcome State Fault Refusal) (test : State → Bool) : Bool :=
  match o with
  | .next t => test t
  | _ => false

/-- The block configured with `digits` positions, idle, nothing sent. -/
def shown (digits : BitVec 3) : State :=
  State.reset.withDrv { Drv.reset with configured := true, digitCount := digits, active := true, intensity := 7#3 }

/-- The same with a text buffer. -/
def withText (s : State) (text : List Host.Cell) : State := s.withDrv { s.drv with text := text }

/-- A text buffer that holds `E`, `?`, `r` (vector T2). -/
def badText : List Host.Cell := [(0, 0x45#8), (1, 0x3F#8), (2, 0x72#8)]

/-- A text buffer that holds `-`, the terminator, `r` (vector T4). -/
def dashText : List Host.Cell := [(0, 0x2D#8), (2, 0x72#8)]

/-- The block with word `w` on its port. -/
def offered (s : State) (w : Word) : State := s.withFetchWord 32 w.toNat

/-- A wide display in two-frame exchanges (vectors W5 and W6, `DP_BIT` 8). -/
def wideConfig : Config := { Config.ref with segBytes := .two, dpBit := 8, splitCmdFrame := true }

/-- `CFG_REF` on a wide display, one frame an exchange. -/
def wideOneFrame : Config := { Config.ref with segBytes := .two }

/-- A configuration that breaks R10: the address base has a low bit set. -/
def badConfig : Config := { Config.ref with addrBase := 0xC1#8 }

/-- A state that meets the invariant and is far from reset: `STB` is low with its rise pending, a turn handler is
active with an edge held off, a press is pulsed. -/
def midFrame : State :=
  { State.reset with
    drv := { Drv.reset with
      configured := true, digitCount := 6#3, text := [(7, 0x41#8)], busy := true
      seq := [⟨.stb, true, [(5, 0x3F#16)]⟩], settle := 1, stb := false
      wire := [(.stb, false), (.clk, false), (.dio, true), (.clk, true)], dio := true }
    dec := { Dec.reset 2 with
      lastLevel := true, pendingClicks := 2, turnBound := true, turnToken := 0x00A1#16, turnActive := true
      aPend := true, pressBound := true, pressToken := 0x00B2#16, pressActive := true, pressValid := true
      pressTokenOut := 0x00B2#16 } }

/-! ## Well-formed terms: one ill-formed term for each check -/

theorem test_wf_init_digits : Instr.wellFormed (.init 256 true 7) = false := by decide
theorem test_wf_init_intensity : Instr.wellFormed (.init 3 true 256) = false := by decide
theorem test_wf_setdigit_position : Instr.wellFormed (.setdigit 256 0 false) = false := by decide
theorem test_wf_setdigit_value : Instr.wellFormed (.setdigit 0 256 false) = false := by decide
theorem test_wf_ldtxt_index : Instr.wellFormed (.ldtxt 256 0x41#8) = false := by decide
theorem test_wf_setstr_start : Instr.wellFormed (.setstr 256) = false := by decide
theorem test_wf_setnum_value : Instr.wellFormed (.setnum 1048576 0#6) = false := by decide
theorem test_wf_setbrt_intensity : Instr.wellFormed (.setbrt true 256) = false := by decide
theorem test_wf_settext_length : setTextWellFormed (List.replicate 9 0x41#8) 0 = false := by decide
theorem test_wf_settext_terminator : setTextWellFormed [0x41#8, 0x00#8] 0 = false := by decide
theorem test_wf_settext_start : setTextWellFormed [0x41#8] 256 = false := by decide

/-- The largest operands that fit are well formed, whatever their legal range (R74). -/
theorem test_wf_limits :
    Instr.wellFormed (.init 255 false 255) = true ∧ Instr.wellFormed (.setdigit 255 255 true) = true
    ∧ Instr.wellFormed (.ldtxt 255 0xFF#8) = true ∧ Instr.wellFormed (.setstr 255) = true
    ∧ Instr.wellFormed (.setnum 1048575 0x3F#6) = true ∧ Instr.wellFormed (.setbrt false 255) = true
    ∧ setTextWellFormed (List.replicate 8 0x41#8) 255 = true := by decide

/-! ## Decoding: words written out from R72 and the E-vectors -/

/-- Opcode 0001, zeros, digits 0000_0011, intensity 0000_0111, zeros, active 1. -/
theorem test_decode_init :
    decode 0b0001_0000_00000011_00000111_0000000_1#32 = .ok (.init 3 true 7)
    ∧ decode 0x10020000#32 = .ok (.init 2 false 0) := by decide

/-- Opcode 0010, zeros, position 0000_0001, value 0000_0110, zeros, dp 1. -/
theorem test_decode_setdigit :
    decode 0b0010_0000_00000001_00000110_0000000_1#32 = .ok (.setdigit 1 6 true)
    ∧ decode 0x20001000#32 = .ok (.setdigit 0 16 false) := by decide

/-- Opcode 0011, zeros, index 0000_0010, zeros, char 0111_0010. -/
theorem test_decode_ldtxt :
    decode 0b0011_0000_00000010_00000000_01110010#32 = .ok (.ldtxt 2 0x72#8)
    ∧ decode 0x30030000#32 = .ok (.ldtxt 3 0x00#8) := by decide

/-- Opcode 0100, zeros, start 0000_0010, zeros. -/
theorem test_decode_setstr : decode 0b0100_0000_00000010_0000000000000000#32 = .ok (.setstr 2) := by decide

/-- Opcode 0101, zeros, dotMask 000010, value 20. -/
theorem test_decode_setnum :
    decode 0b0101_00_000010_00000000000000010100#32 = .ok (.setnum 20 0b000010#6)
    ∧ decode 0x53FFFFFF#32 = .ok (.setnum 1048575 0b111111#6) := by decide

theorem test_decode_clear : decode 0b0110_0000_00000000_00000000_00000000#32 = .ok .clear := by decide

/-- Opcode 0111, zeros, intensity 0000_0011, zeros, active 1. -/
theorem test_decode_setbrt :
    decode 0b0111_0000_00000000_00000011_0000000_1#32 = .ok (.setbrt true 3) := by decide

theorem test_decode_onturn : decode 0b1000_000000000000_0000000010100001#32 = .ok (.onturn 0x00A1#16) := by decide

theorem test_decode_onpress : decode 0b1001_000000000000_1111111111111111#32 = .ok (.onpress 0xFFFF#16) := by decide

theorem test_decode_tret : decode 0b1010_0000_00000000_00000000_00000000#32 = .ok .tret := by decide

theorem test_decode_pret : decode 0b1011_0000_00000000_00000000_00000000#32 = .ok .pret := by decide

/-- The X-vectors with a reserved opcode (R75). -/
theorem test_decode_reserved :
    [0x00000000#32, 0xC0000000#32, 0xD0000000#32, 0xE0000000#32, 0xFFFFFFFF#32].all
      (fun w => decide (decode w = .error .reservedOpcode)) = true := by decide

/-- The X-vectors with a must-be-zero bit set, one or more for every format (R76). -/
theorem test_decode_must_be_zero :
    [0x60000001#32, 0x10030703#32, 0x5C000000#32, 0x30020172#32, 0x70010200#32, 0xA0000001#32, 0x80010000#32,
      0x40000001#32, 0x21000000#32].all (fun w => decide (decode w = .error .mustBeZero)) = true := by decide

/-- No two rows of R73 have a word in common: two masks' common bits tell the matches apart. -/
theorem test_table_rows_disjoint :
    opcodeTable.Pairwise (fun r r' =>
      r.matchBits &&& (r.maskBits &&& r'.maskBits) ≠ r'.matchBits &&& (r.maskBits &&& r'.maskBits)) := by decide

theorem test_host_word : decodeTableWord 32 0x50200014 = some (.setnum 20 0b000010#6) := by decide

/-! ## The wire (W-vectors) -/

/-- W1: the bits of 0x44 in the order sent. -/
theorem test_send_byte :
    (sendByte 0x44#8).map SeqWrite.entry =
      [false, false, true, false, false, false, true, false].flatMap
        (fun b => [(.clk, false), (.dio, b), (.clk, true)]) := by decide

/-- W4. -/
theorem test_address_bytes :
    [0, 1, 2, 3, 4, 5].map (addrByte Config.ref) = [0xC0#8, 0xC2#8, 0xC4#8, 0xC6#8, 0xC8#8, 0xCA#8] := by decide

set_option maxRecDepth 4000 in
/-- W5, both framings. -/
theorem test_exchange :
    pendingFrames (exchange Config.ref 0x44#8 [0xC4#8, 0x07#8] []) = some [[0x44#8, 0xC4#8, 0x07#8]]
    ∧ pendingFrames (exchange wideConfig 0x44#8 [0xC4#8, 0x07#8] []) = some [[0x44#8], [0xC4#8, 0x07#8]] := by
  decide

/-- Bits that are no whole bytes are no frame. -/
theorem test_partial_frame : framesOf [(.stb, false), (.clk, false), (.clk, true), (.stb, true)] = none := by decide

/-- R51 on the exchange of W6: the low byte lies at the even offset, the high byte after it. -/
theorem test_disp_writes :
    dispWrites wideOneFrame [0x40#8, 0xC2#8, 0x7D#8, 0x01#8] = some [(2, 0x7D#8), (3, 0x01#8)] := by decide

/-! ## Commands, one acceptance each -/

set_option maxRecDepth 4000 in
/-- D1: the registers after `INIT 3, 1, 7`, and the 246 line writes. -/
theorem test_init :
    after (exec (.init 3 true 7) State.reset) (fun t => t.drv.configured && decide (t.drv.digitCount = 3#3)
      && t.drv.active && decide (t.drv.intensity = 7#3) && decide (t.drv.addrMode = .autoinc)
      && decide (t.drv.seqStatus = .ok) && decide (t.drv.seq.length = 246)) = true := by decide

/-- D20: a bad intensity locks the display and leaves the other registers. -/
theorem test_init_out_of_range :
    after (exec (.init 3 true 8) (shown 3#3)) (fun t => decide (t = (shown 3#3).withDrv { (shown 3#3).drv with
      configured := false, busy := true, seqStatus := .configurationError })) = true := by decide

set_option maxRecDepth 4000 in
/-- D2: `SETDIGIT 1, 6, 1` sends 44, C2, FD and leaves shadow[1] = FD. -/
theorem test_setdigit :
    after (exec (.setdigit 1 6 true) (shown 3#3)) (fun t =>
      decide (pendingFrames t.drv.seq = some [[0x44#8, 0xC2#8, 0xFD#8]])
      && decide (t.drv.drain.shadow[1] = some 0xFD#16) && decide (t.drv.addrMode = .fixed)) = true := by decide

/-- Q1: position before value; D4: a value above 15 is a silent no-op. -/
theorem test_setdigit_checks :
    after (exec (.setdigit 9 99 false) (shown 3#3)) (fun t => decide (t.drv.seqStatus = .invalidArgument)) = true
    ∧ after (exec (.setdigit 2 99 false) (shown 3#3)) (fun t =>
        decide (t.drv.seqStatus = .ok) && t.drv.seq.isEmpty) = true := by decide

/-- D22: loading text needs no configuration. -/
theorem test_ldtxt :
    after (exec (.ldtxt 7 0x41#8) State.reset) (fun t => decide (t.drv.text = [(7, 0x41#8)])
      && decide (t.drv.seqStatus = .ok)) = true := by decide

/-- T9. -/
theorem test_ldtxt_out_of_range :
    after (exec (.ldtxt 8 0x41#8) State.reset) (fun t => t.drv.text.isEmpty
      && decide (t.drv.seqStatus = .invalidArgument)) = true := by decide

set_option maxRecDepth 4000 in
/-- T4: the text stops at the terminator; index 0 goes to position `start`. -/
theorem test_setstr :
    after (exec (.setstr 2) (withText (shown 3#3) dashText)) (fun t =>
      decide (pendingFrames t.drv.seq = some [[0x44#8, 0xC4#8, 0x40#8]])) = true := by decide

/-- T2, T3: an unmapped character fails before anything is written, and is not looked up when it has no room. -/
theorem test_setstr_unmapped :
    after (exec (.setstr 0) (withText (shown 3#3) badText)) (fun t =>
      decide (t.drv.seqStatus = .invalidArgument) && t.drv.seq.isEmpty) = true
    ∧ after (exec (.setstr 2) (withText (shown 3#3) badText)) (fun t =>
      decide (t.drv.seqStatus = .ok) && decide (t.drv.seq.length = 74)) = true := by decide

/-- D10, D15: what each position shows, the ones first. -/
theorem test_setnum :
    renderNumber Config.ref 0#6 3 true 1007 = [(2, 0x07#16), (1, 0x3F#16), (0, 0x3F#16)]
    ∧ renderNumber Config.ref 0b000001#6 3 true 7 = [(2, 0x07#16), (1, 0x00#16), (0, 0x80#16)] := by decide

/-- D26. -/
theorem test_setnum_six_digits :
    (renderNumber Config.ref 0b111111#6 6 true 1048575).map Prod.snd
      = [0xED#16, 0x87#16, 0xED#16, 0xFF#16, 0xE6#16, 0xBF#16] := by decide

set_option maxRecDepth 6000 in
/-- One digit: `CLEAR` sends 40, C0, 00, 00 and blanks position 0 alone. -/
theorem test_clear :
    after (exec .clear (shown 1#3)) (fun t =>
      decide (pendingFrames t.drv.seq = some [[0x40#8, 0xC0#8, 0x00#8, 0x00#8]])
      && decide (t.drv.drain.shadow = #v[some 0#16, none, none, none, none, none])) = true := by decide

/-- R101: before configuration. -/
theorem test_clear_gated :
    after (exec .clear State.reset) (fun t => decide (t.drv.seqStatus = .configurationError)) = true := by decide

set_option maxRecDepth 4000 in
/-- D17. -/
theorem test_setbrt :
    after (exec (.setbrt false 2) (shown 3#3)) (fun t => decide (pendingFrames t.drv.seq = some [[0x82#8]])
      && !t.drv.active && decide (t.drv.intensity = 2#3)) = true := by decide

/-- D19. -/
theorem test_setbrt_out_of_range :
    after (exec (.setbrt true 8) (shown 3#3)) (fun t => decide (t.drv.seqStatus = .invalidArgument)
      && t.drv.configured && decide (t.drv.intensity = 7#3)) = true := by decide

/-- R111; V5: a token replaced while the handler is active leaves it active. -/
theorem test_onturn :
    after (exec (.onturn 0x00C3#16) midFrame) (fun t => decide (t.dec.turnToken = 0x00C3#16) && t.dec.turnBound
      && t.dec.turnActive) = true := by decide

theorem test_onpress :
    after (exec (.onpress 0x00B2#16) State.reset) (fun t => decide (t.dec.pressToken = 0x00B2#16)
      && t.dec.pressBound && !t.dec.turnBound) = true := by decide

/-- R113: the held-off edge is not served by the command itself. -/
theorem test_tret :
    after (exec .tret midFrame) (fun t => !t.dec.turnActive && t.dec.aPend && t.dec.pressActive) = true := by decide

theorem test_pret :
    after (exec .pret midFrame) (fun t => !t.dec.pressActive && t.dec.turnActive) = true := by decide

/-! ## Clock edges -/

/-- X-vector: an illegal word is accepted and responds `IllegalCommand` (code 4) in the next cycle. -/
theorem test_step_illegal :
    after (step (offered State.reset 0x60000001#32)) (fun t => t.drv.rspValid && decide (t.drv.rspStatus = 4#3)
      && t.drv.busy) = true := by decide

/-- R16, R100: the word on the port of the idle block runs. -/
theorem test_step_onturn :
    after (step (offered State.reset 0x800000A1#32)) (fun t => t.dec.turnBound
      && decide (t.dec.turnToken = 0x00A1#16) && t.drv.rspValid && decide (t.drv.rspStatus = 0#3)) = true := by decide

/-- R100: a pending line write is performed at the edge that follows; the exchange it ends has not finished. -/
theorem test_step_line_write :
    after (step midFrame) (fun t => t.drv.stb && t.drv.seq.isEmpty && decide (t.drv.shadow[5] = none)
      && !t.drv.rspValid && decide (t.drv.wire.length = 5)) = true := by decide

/-- The cycle after the last line write of a `WriteSeg(5, 0x3F)`, the last cycle of its settle delay. -/
def settledFrame : State :=
  { midFrame with drv := { midFrame.drv with
      seq := [], settling := [(5, 0x3F#16)], stb := true, wire := midFrame.drv.wire ++ [(.stb, true)] } }

/-- R93, R95, R100: with the settle delay the exchange has finished, `shadow` has the code at the response. -/
theorem test_step_exchange_finished :
    after (step settledFrame) (fun t => decide (t.drv.shadow[5] = some 0x3F#16) && t.drv.settling.isEmpty
      && t.drv.rspValid) = true := by decide

/-- R176: reset cuts the frame; no response. -/
theorem test_step_reset :
    after (step { midFrame with inp := { midFrame.inp with rst := true } }) (fun t =>
      decide (t.drv = Drv.reset) && decide (t.dec = Dec.reset 2)) = true := by decide

/-- V12's setting: no synchroniser, threshold 0, `ONTURN 0x00A1` completed. -/
def turnBench (aPrev a b active pend last : Bool) : State :=
  { State.resetIn { Config.ref with threshold := 0, cntW := 1, syncStages := 0 } with
    dec := { Dec.reset 0 with
      turnBound := true, turnToken := 0x00A1#16, aPrev := aPrev, turnActive := active, aPend := pend
      lastLevel := last }
    inp := { Inputs.quiet with encA := a, encB := b } }

/-- V12, cycle 1: the edge is taken at once and the pulse stands in the next cycle. -/
theorem test_turn_emits :
    after (step (turnBench true false false false false false)) (fun t => t.dec.turnValid && !t.dec.turnDir
      && decide (t.dec.turnTokenOut = 0x00A1#16) && t.dec.turnActive && !t.dec.aPend && !t.dec.aPrev) = true := by decide

/-- V12, cycles 3 and 5: an edge while active is held; `TRET` serves it in the same cycle. -/
theorem test_turn_held_and_served :
    after (step (turnBench true false true true false false)) (fun t => t.dec.aPend && t.dec.turnActive
      && !t.dec.lastLevel && !t.dec.turnValid) = true
    ∧ after (step (offered (turnBench true true true true true false) 0xA0000000#32)) (fun t => !t.dec.aPend
      && !t.dec.turnActive && t.dec.lastLevel && !t.dec.turnValid && decide (t.dec.pendingClicks = 0)) = true := by decide

/-- R132: a press is pulsed at the falling edge. -/
theorem test_press_emits :
    after (step { turnBench false false false false false false with
        dec := { Dec.reset 0 with pressBound := true, pressToken := 0x00B2#16, swPrev := true } }) (fun t =>
      t.dec.pressValid && decide (t.dec.pressTokenOut = 0x00B2#16) && t.dec.pressActive) = true := by decide

/-- V7: with threshold 0 one edge at the recorded level emits. -/
theorem test_turn_threshold_zero :
    (Dec.fallA 0 false { Dec.reset 2 with turnBound := true, turnToken := 0x00A1#16 }).turnValid = true := by decide

/-- V5: a held-off edge is served with the level of the time of service. -/
theorem test_serve :
    Dec.serveA 2 false { Dec.reset 2 with turnBound := true, aPend := true, lastLevel := true }
      = { Dec.reset 2 with turnBound := true } := by decide

/-- R45, Q3. -/
theorem test_reset_outputs :
    State.reset.outputs = ⟨true, false, 0#3, true, true, false, false, false, 0#16, false, 0#16, false, false⟩ := by
  decide

/-! ## Witnesses: states and operands that meet the hypotheses of an obligation -/

/-- Operands at the ends of their fields. -/
theorem witness_wellFormed :
    Instr.wellFormed (.init 0 false 255) = true ∧ Instr.wellFormed (.setnum 1048575 0x3F#6) = true
    ∧ Instr.wellFormed .pret = true := by decide

theorem witness_EncodeOfDecodeIsIdentity : decode 0xB0000000#32 = .ok .pret := by decide

/-- Both clauses: a reserved opcode, and `INIT`'s opcode with bit 1 set. -/
theorem witness_IllegalWordsChangeNothing :
    slice 0xC0000000#32 31 28 ∈ [0x0, 0xC, 0xD, 0xE, 0xF]
    ∧ ∃ r ∈ opcodeTable, slice 0x10030703#32 31 28 = slice r.matchBits 31 28
        ∧ 0x10030703#32 &&& r.maskBits ≠ r.matchBits :=
  ⟨by decide, ⟨"INIT", 0x10000000#32, 0xFF0000FE#32⟩, by decide, by decide, by decide⟩

/-- Every clause of `ExchangeFrames`. -/
theorem witness_ExchangeFrames :
    ([] : List Byte) = [] ∧ ([0xC4#8] : List Byte) ≠ [] ∧ wideConfig.splitCmdFrame = true
    ∧ Config.ref.splitCmdFrame = false := by decide

/-- The last position, on a narrow and on a wide display. -/
theorem witness_PositionWriteLandsAtItsCells :
    Config.ref.wf = true ∧ Config.ref.segBytes = .one ∧ wideConfig.wf = true ∧ wideConfig.segBytes = .two
    ∧ 5 < maxDigits := by decide

/-- `INIT` in range at both ends, and out of range each way. -/
theorem witness_InitMeaning :
    State.reset.drv.NothingPending ∧ 1 ≤ 1 ∧ 6 ≤ 6 ∧ 7 ≤ 7
    ∧ Config.ref.modeBytes[1 - 1]? = some 0x00#8 ∧ Config.ref.modeBytes[6 - 1]? = some 0x05#8
    ∧ Config.ref.ctrlOff[0]? = some 0x80#8 ∧ Config.ref.ctrlOn[7]? = some 0x8F#8
    ∧ (0 < 1 ∨ 0 > 6 ∨ 0 > 7) ∧ (7 < 1 ∨ 7 > 6 ∨ 0 > 7) ∧ (6 < 1 ∨ 6 > 6 ∨ 8 > 7) := by decide

/-- The premises of the gated commands: not configured; configured and idle on six digits. -/
theorem witness_gated :
    State.reset.drv.configured = false ∧ (shown 6#3).drv.configured = true ∧ (shown 6#3).drv.NothingPending
    ∧ (shown 6#3).drv.CountOk := by decide

/-- `SETBRT`: intensity 8 is out, 7 is in. -/
theorem witness_SetbrtMeaning :
    8 > 7 ∧ 7 ≤ 7 ∧ (shown 6#3).drv.configured = true
    ∧ Config.ref.ctrlOff[7]? = some 0x87#8 ∧ Config.ref.ctrlOn[0]? = some 0x88#8 := by decide

/-- `SETDIGIT`: position 6 of 6 is out, 5 is in; value 16 shows nothing, 15 has a code. -/
theorem witness_SetdigitMeaning :
    6 ≥ (shown 6#3).drv.digitCount.toNat ∧ 5 < (shown 6#3).drv.digitCount.toNat ∧ 16 > 15
    ∧ Config.ref.hexFont[15]? = some 0x71#16 ∧ Config.ref.hexFont[0]? = some 0x3F#16 := by decide

/-- `LDTXT`: index 8 is out, 7 is in. -/
theorem witness_LdtxtMeaning : 8 > 7 ∧ 7 ≤ 7 ∧ (withText (shown 3#3) badText).drv.TextOk := by decide

/-- `SETSTR`: start 3 of 3 is out; T2 meets an unmapped character at index 1. -/
theorem witness_SetstrMeaning_refused :
    3 ≥ (shown 3#3).drv.digitCount.toNat ∧ 0 < (shown 3#3).drv.digitCount.toNat
    ∧ textUnmappedAt Config.ref (withText (shown 3#3) badText).drv 3 1 := by
  unfold textUnmappedAt
  decide

/-- `SETSTR`: T4 stops at the terminator, T3 at the last position, T8 writes nothing. -/
theorem witness_SetstrMeaning_shown :
    textCodes Config.ref (withText (shown 3#3) dashText).drv 3 [0x40#16]
    ∧ textCodes Config.ref (withText (shown 3#3) badText).drv 1 [0x79#16]
    ∧ textCodes Config.ref (shown 3#3).drv 3 [] := by
  have one : ∀ {k : Nat} {c d : SegCode}, [d][k]? = some c → k = 0 ∧ c = d := by
    intro k c d h
    cases k with
    | zero => exact ⟨rfl, by simpa using h.symm⟩
    | succ k => simp at h
  refine ⟨⟨by decide, by decide, fun k c h => ?_, .inr (.inr (by decide))⟩,
    ⟨by decide, by decide, fun k c h => ?_, .inl (by decide)⟩,
    by decide, by decide, fun k c h => by simp at h, .inr (.inr (by decide))⟩
  · obtain ⟨rfl, rfl⟩ := one h; decide
  · obtain ⟨rfl, rfl⟩ := one h; decide

/-- No character, and eight. -/
theorem witness_SetTextExpansion :
    setTextWellFormed [] 0 = true ∧ setTextWellFormed (List.replicate 8 0x41#8) 0 = true
    ∧ State.reset.drv.TextOk := by decide

/-- Each side of R150 and of R151 occurs. -/
theorem witness_statuses :
    after (exec (.init 0 true 0) State.reset) (fun t => decide (t.drv.seqStatus = .configurationError)) = true
    ∧ after (exec (.setnum 0 0#6) State.reset) (fun t => decide (t.drv.seqStatus = .configurationError)) = true
    ∧ after (exec (.setstr 3) (shown 3#3)) (fun t => decide (t.drv.seqStatus = .invalidArgument)) = true
    ∧ after (exec (.setdigit 3 0 false) (shown 3#3)) (fun t => decide (t.drv.seqStatus = .invalidArgument)) = true
    ∧ after (acceptWord 0x00000000#32 State.reset) (fun t => decide (t.drv.seqStatus = .illegalCommand)) = true := by
  decide

/-- Each flag a command writes is changed by it somewhere. -/
theorem witness_CommandsWriteOnlyTheirFlags :
    after (exec (.init 6 true 0) State.reset) (fun t => t.drv.configured) = true
    ∧ after (exec (.onturn 1#16) State.reset) (fun t => t.dec.turnBound) = true
    ∧ after (exec (.onpress 1#16) State.reset) (fun t => t.dec.pressBound) = true
    ∧ after (exec .tret midFrame) (fun t => !t.dec.turnActive) = true
    ∧ after (exec .pret midFrame) (fun t => !t.dec.pressActive) = true := by decide

/-- Every command completes from the state `witness_midFrame` speaks of. -/
theorem witness_exec_next :
    (∃ t, exec .clear midFrame = .next t) ∧ ∃ t, exec (.setnum 1 0#6) midFrame = .next t := ⟨⟨_, rfl⟩, ⟨_, rfl⟩⟩

/-- A state that meets the invariant and is not a reset state; its next step exists, without reset or hold. -/
theorem witness_midFrame :
    midFrame.Inv ∧ midFrame.NoReset ∧ midFrame.inp.rst = false ∧ midFrame.drv.busy = true
    ∧ midFrame.cfg.wf = true ∧ ∃ t, step midFrame = .next t ∧ t.drv.wire ≠ midFrame.drv.wire :=
  ⟨by decide, by decide, by decide, by decide, by decide, _, rfl, by decide⟩

/-- The cycle of a response: busy, nothing pending. -/
def responding : State :=
  State.reset.withDrv { Drv.reset with configured := true, digitCount := 1#3, busy := true, rspValid := true }

/-- A response is pulsed; the state meets the invariant and steps. -/
theorem witness_OutputPorts :
    responding.Inv ∧ responding.outputs.rspValid = true ∧ ∃ t, step responding = .next t :=
  ⟨by decide, by decide, _, rfl⟩

/-- A step that pulses a response, and a word that raises a status. -/
theorem witness_StatusCodes :
    after (step (offered State.reset 0x60000001#32)) (fun t => t.drv.rspValid) = true
    ∧ ∃ t, acceptWord 0x60000001#32 State.reset = .next t := ⟨by decide, _, rfl⟩

/-- The clauses: no word accepted, on an idle, a busy and a responding block; a word accepted. -/
theorem witness_EdgesKeepCommandRegisters :
    State.reset.accepts = false ∧ State.reset.drv.busy = false ∧ midFrame.accepts = false
    ∧ midFrame.drv.busy = true ∧ responding.accepts = false ∧ responding.drv.busy = true
    ∧ (offered midFrame 0x60000000#32).accepts = true ∧ (offered midFrame 0x60000000#32).inp.rst = false
    ∧ (∃ t, step State.reset = .next t) ∧ ∃ t, step (offered midFrame 0x60000000#32) = .next t :=
  ⟨by decide, by decide, by decide, by decide, by decide, by decide, by decide, by decide, ⟨_, rfl⟩, ⟨_, rfl⟩⟩

/-- With something else on its command port the busy block steps as well. -/
theorem witness_BusyBlockIgnoresCommandPort :
    ∃ t, step { midFrame with inp := { midFrame.inp with cmdValid := true, cmd := 0x60000000#32 } } = .next t :=
  ⟨_, rfl⟩

/-- Both clauses: a configuration that meets R10 and one that does not. -/
theorem witness_StepNeverStops :
    State.reset.cfg.wf = true ∧ (State.resetIn badConfig).cfg.wf = false := by decide

theorem witness_ResetMeetsInvariant : wideConfig.wf = true := by decide

theorem witness_ResetEdgeTakesResetValues :
    midFrame.cfg.wf = true
    ∧ ({ midFrame with inp := { midFrame.inp with rst := true } } : State).inp.rst = true := by decide

theorem witness_StepRunsDecodedCommand :
    (offered State.reset 0xB0000000#32).inp.rst = false ∧ (offered State.reset 0xB0000000#32).inp.cmdValid = true
    ∧ (offered State.reset 0xB0000000#32).drv.busy = false
    ∧ decode (offered State.reset 0xB0000000#32).inp.cmd = .ok .pret := by decide

theorem witness_PresentedWordIsRun :
    midFrame.cfg.wf = true ∧ Instr.wellFormed (.setnum 1048575 0x3F#6) = true := by decide

/-- One pending line write, no settle delay running. -/
theorem witness_SequencerRunsToResponse :
    ({ midFrame with drv := { midFrame.drv with settle := 0 } } : State).cfg.wf = true
    ∧ undisturbed { midFrame with drv := { midFrame.drv with settle := 0 } }
    ∧ midFrame.drv.busy = true ∧ midFrame.drv.rspValid = false := by
  refine ⟨by decide, ⟨by decide, by decide, ?_⟩, by decide, by decide⟩
  intro p h
  cases h

/-- No settle delay ends in an idle cycle; one ends in the cycle of `settledFrame`, whose state meets the invariant,
with no line write pending, and in that of `midFrame`, with one. -/
theorem witness_ShadowTakesFinishedExchanges :
    settledFrame.Inv ∧ settledFrame.inp.rst = false ∧ settledFrame.drv.seq = [] ∧ midFrame.drv.seq ≠ []
    ∧ (∃ t, step settledFrame = .next t) ∧ (∃ t, step midFrame = .next t) ∧ ∃ t, step State.reset = .next t :=
  ⟨by decide, by decide, by decide, by decide, ⟨_, rfl⟩, ⟨_, rfl⟩, ⟨_, rfl⟩⟩

/-- A cycle that performs a line write is followed by a delay of three cycles in this configuration. -/
theorem witness_LineWritesKeepSettleDelay :
    State.Inv { midFrame with cfg := { Config.ref with settleTicks := 3 } }
    ∧ ∃ t, step { midFrame with cfg := { Config.ref with settleTicks := 3 } } = .next t
      ∧ t.drv.wire ≠ midFrame.drv.wire ∧ ∃ u, run 2 t = .next u :=
  ⟨by decide, _, rfl, by decide, _, rfl⟩

theorem witness_NoWriteCommandRespondsNextCycle :
    (offered State.reset 0xA0000000#32).accepts = true ∧ (offered State.reset 0xA0000000#32).inp.hold = false
    ∧ after (acceptWord 0xA0000000#32 (offered State.reset 0xA0000000#32).endPulses) (fun t => t.drv.seq.isEmpty)
      = true := by decide

/-- Both clauses: another decoder and other lines; another driver, with no decoder command on the port. -/
theorem witness_DriverAndDecoderShareNothing :
    (∃ t, step State.reset = .next t)
    ∧ (∃ t, step { State.reset with dec := midFrame.dec, inp := { Inputs.quiet with encA := true } } = .next t)
    ∧ (∃ t, step { State.reset with drv := midFrame.drv } = .next t)
    ∧ ∀ i, decode State.reset.inp.cmd = .ok i →
        (∀ token, i ≠ .onturn token ∧ i ≠ .onpress token) ∧ i ≠ .tret ∧ i ≠ .pret := by
  refine ⟨⟨_, rfl⟩, ⟨_, rfl⟩, ⟨_, rfl⟩, fun i h => ?_⟩
  rw [show decode State.reset.inp.cmd = .error .reservedOpcode by decide] at h
  cases h

/-- The three clauses of a turn step at threshold 2: a count of 2, of 1, and another level. -/
theorem witness_TurnStepMeaning :
    midFrame.dec.lastLevel = true ∧ midFrame.dec.pendingClicks + 1 > 2 ∧ ¬ 1 + 1 > 2 ∧ false ≠ midFrame.dec.lastLevel := by
  decide

/-- The four clauses of the turn source's events. -/
theorem witness_TurnEventsMeaning :
    (Dec.reset 2).turnBound = false ∧ midFrame.dec.turnBound = true ∧ midFrame.dec.turnActive = true
    ∧ midFrame.dec.returnTurn.turnActive = false ∧ midFrame.dec.returnTurn.aPend = true := by decide

/-- The four clauses of the button's events. -/
theorem witness_PressEventsMeaning :
    (Dec.reset 2).pressBound = false ∧ midFrame.dec.pressBound = true ∧ midFrame.dec.pressActive = true
    ∧ midFrame.dec.returnPress.pressActive = false
    ∧ ({ midFrame.dec.returnPress with swPend := true } : Dec).swPend = true := by decide

/-- A turn edge held off and ready to be served, threshold 2, secondary line at level 0. -/
def servable (clicks : Nat) (last : Bool) : State :=
  { midFrame with dec := { midFrame.dec with turnActive := false, pendingClicks := clicks, lastLevel := last } }

/-- Each clause of the turn channel: a served edge that emits, that is counted, that reverses; a held one. -/
theorem witness_TurnChannelCycle :
    (∃ t, step (servable 2 false) = .next t) ∧ tretNow (servable 2 false) = false
    ∧ (servable 2 false).dec.aPend = true ∧ syncOut (servable 2 false).inp.encB (servable 2 false).dec.bSync = false
    ∧ 2 + 1 > (servable 2 false).cfg.threshold ∧ ¬ 1 + 1 > (servable 1 false).cfg.threshold
    ∧ (∃ t, step (servable 1 false) = .next t) ∧ (∃ t, step (servable 2 true) = .next t)
    ∧ midFrame.dec.turnActive = true ∧ tretNow (offered midFrame 0xA0000000#32) = true :=
  ⟨⟨_, rfl⟩, by decide, by decide, by decide, by decide, by decide, ⟨_, rfl⟩, ⟨_, rfl⟩, by decide, by decide⟩

theorem witness_PressChannelCycle :
    (∃ t, step (offered midFrame 0xB0000000#32) = .next t) ∧ pretNow (offered midFrame 0xB0000000#32) = true
    ∧ pretNow midFrame = false := ⟨⟨_, rfl⟩, by decide, by decide⟩

/-- An idle step leaves the bindings. -/
theorem witness_ChannelsRefineEvents :
    midFrame.sampled.turnBound = midFrame.dec.turnBound ∧ midFrame.sampled.turnToken = midFrame.dec.turnToken
    ∧ midFrame.sampled.pressBound = midFrame.dec.pressBound
    ∧ midFrame.sampled.pressToken = midFrame.dec.pressToken := by decide

/-- Nothing is bound after reset; a step exists with `ONTURN` accepted in it. -/
theorem witness_UnboundSourceDropsEdges :
    (offered State.reset 0x800000A1#32).Inv ∧ (offered State.reset 0x800000A1#32).inp.rst = false
    ∧ (offered State.reset 0x800000A1#32).dec.turnBound = false
    ∧ (offered State.reset 0x800000A1#32).dec.pressBound = false
    ∧ ∃ t, step (offered State.reset 0x800000A1#32) = .next t :=
  ⟨by decide, by decide, by decide, by decide, _, rfl⟩

theorem witness_ActiveSourceNeverNests :
    midFrame.dec.turnActive = true ∧ tretNow midFrame = false ∧ midFrame.dec.pressActive = true
    ∧ pretNow midFrame = false := by decide

/-- V1 and V7: two edges at the recorded level, then the emission; with threshold 0 the first edge emits. -/
theorem witness_EmissionNeedsEqualRun :
    (Dec.reset 2).pendingClicks = 0
    ∧ turnEmits 2 0x00A1#16 false (turnSteps 2 0x00A1#16 [false, false] (Dec.reset 2))
    ∧ turnEmits 0 0x00A1#16 false (turnSteps 0 0x00A1#16 [] (Dec.reset 2)) := by
  unfold turnEmits
  decide

theorem witness_HeldLevelEmitsOnce : (Dec.reset 2).pendingClicks = 0 ∧ 0 ≤ 2 ∧ 2 ≤ 2 := by decide

/-- R130: each synchroniser takes its own pin. -/
theorem test_synchronisers :
    after (step { midFrame with inp := { midFrame.inp with encA := true, encB := false, encSw := true } }) (fun t =>
      decide (t.dec.aSync = [true, false]) && decide (t.dec.bSync = [false, false])
      && decide (t.dec.swSync = [true, false])) = true := by decide

/-- No flop, and as many pins as flops. -/
theorem witness_SynchroniserOnlyDelays :
    ([] : List Bool).length ≤ ([] : List Bool).length ∧ [false, false].length ≤ [true, false].length := by decide

end Sys2Proof.Tests
end

section
/-! PROOFS. The flag table of R44 and the reset table of R45: which command changes which part of the state, and
what every part holds after reset. -/

namespace Sys2Proof.Machine

/-! ## The configured gate and the text buffer -/

/-- `d'` has the gate and the text buffer of `d`: what each command but `INIT` and `LDTXT` leaves (R24, R44). -/
structure Drv.KeepsGateAndText (d d' : Drv) : Prop where
  configured : d'.configured = d.configured
  text : d'.text = d.text

theorem Drv.KeepsGateAndText.respond (d : Drv) (st : Status) : d.KeepsGateAndText (d.respond st) :=
  ⟨rfl, rfl⟩

theorem Drv.KeepsGateAndText.raise (d : Drv) (st : Status) : d.KeepsGateAndText (d.raise st) :=
  ⟨rfl, rfl⟩

theorem Drv.KeepsGateAndText.gated {d body : Drv} (h : d.KeepsGateAndText body) :
    d.KeepsGateAndText (d.gated body) := by
  unfold Drv.gated
  split
  · exact h
  · exact .raise d _

theorem Drv.KeepsGateAndText.unlessInvalid {d body : Drv} (invalid : Bool) (h : d.KeepsGateAndText body) :
    d.KeepsGateAndText (d.unlessInvalid invalid body) := by
  unfold Drv.unlessInvalid
  split
  · exact .raise d _
  · exact h

theorem Drv.KeepsGateAndText.writeSegs (cfg : Config) (cells : List (Nat × SegCode)) (st : Status) (d : Drv) :
    d.KeepsGateAndText ((d.writeSegs cfg cells).respond st) := by
  rw [Drv.writeSegs_eq]
  exact ⟨rfl, rfl⟩

theorem Drv.setBrightness_keepsGateAndText (cfg : Config) (active : Bool) (intensity : Nat) (d : Drv) :
    d.KeepsGateAndText (d.setBrightness cfg active intensity) :=
  .gated <| .unlessInvalid _ ⟨rfl, rfl⟩

theorem Drv.clearDisplay_keepsGateAndText (cfg : Config) (d : Drv) :
    d.KeepsGateAndText (d.clearDisplay cfg) :=
  .gated ⟨rfl, rfl⟩

theorem Drv.setDigit_keepsGateAndText (cfg : Config) (position value : Nat) (dp : Bool) (d : Drv) :
    d.KeepsGateAndText (d.setDigit cfg position value dp) := by
  apply Drv.KeepsGateAndText.gated
  apply Drv.KeepsGateAndText.unlessInvalid
  split
  · exact ⟨rfl, rfl⟩
  · exact .respond d _

theorem Drv.setString_keepsGateAndText (cfg : Config) (start : Nat) (d : Drv) :
    d.KeepsGateAndText (d.setString cfg start) := by
  apply Drv.KeepsGateAndText.gated
  apply Drv.KeepsGateAndText.unlessInvalid
  split
  · exact .raise d _
  · exact .writeSegs cfg _ _ d

theorem Drv.setNumber_keepsGateAndText (cfg : Config) (value : Nat) (dotMask : BitVec 6) (d : Drv) :
    d.KeepsGateAndText (d.setNumber cfg value dotMask) :=
  .gated (.writeSegs cfg _ _ d)

/-- `INIT` may change the gate, but not the text buffer. -/
theorem Drv.configure_text (cfg : Config) (digits : Nat) (active : Bool) (intensity : Nat) (d : Drv) :
    (d.configure cfg digits active intensity).text = d.text := by
  unfold Drv.configure
  split <;> rfl

/-- `LDTXT` may change the text buffer, but not the gate. -/
theorem Drv.loadText_configured (index : Nat) (char : Byte) (d : Drv) :
    (d.loadText index char).configured = d.configured := by
  unfold Drv.loadText
  split <;> rfl

/-- R24, R44: of all commands `INIT` alone changes the gate and `LDTXT` alone the text buffer. -/
theorem exec_gateAndText {i : Instr} {s t : State} (h : exec i s = .next t) :
    (t.drv.configured ≠ s.drv.configured → ∃ digits active intensity, i = .init digits active intensity)
    ∧ (t.drv.text ≠ s.drv.text → ∃ index char, i = .ldtxt index char) := by
  have keeps (k : s.drv.KeepsGateAndText t.drv) :
      (t.drv.configured ≠ s.drv.configured → ∃ digits active intensity, i = .init digits active intensity)
      ∧ (t.drv.text ≠ s.drv.text → ∃ index char, i = .ldtxt index char) :=
    ⟨absurd k.configured, absurd k.text⟩
  cases i <;> obtain rfl := Host.Outcome.next.inj h
  case init => exact ⟨fun _ => ⟨_, _, _, rfl⟩, absurd (Drv.configure_text _ _ _ _ _)⟩
  case ldtxt => exact ⟨absurd (Drv.loadText_configured _ _ _), fun _ => ⟨_, _, rfl⟩⟩
  case setdigit => exact keeps (Drv.setDigit_keepsGateAndText _ _ _ _ _)
  case setstr => exact keeps (Drv.setString_keepsGateAndText _ _ _)
  case setnum => exact keeps (Drv.setNumber_keepsGateAndText _ _ _ _)
  case clear => exact keeps (Drv.clearDisplay_keepsGateAndText _ _)
  case setbrt => exact keeps (Drv.setBrightness_keepsGateAndText _ _ _ _)
  case onturn | onpress | tret | pret => exact keeps (.respond _ _)

/-! ## The decoder's flags -/

section Commanded

variable {d d' : Dec} {i : Instr}

/-- R44: `ONTURN` alone changes the turn binding, and it leaves the turn bound. -/
theorem Dec.Commanded.turnBinding_changed (h : d.Commanded (some i) d')
    (hne : d'.turnBound ≠ d.turnBound ∨ d'.turnToken ≠ d.turnToken) :
    d'.turnBound = true ∧ ∃ token, i = .onturn token := by
  cases h with
  | bindTurn token => exact ⟨rfl, token, rfl⟩
  | none | bindPress | returnTurn | returnPress => simp at hne

/-- R44: `ONPRESS` alone changes the press binding, and it leaves the button bound. -/
theorem Dec.Commanded.pressBinding_changed (h : d.Commanded (some i) d')
    (hne : d'.pressBound ≠ d.pressBound ∨ d'.pressToken ≠ d.pressToken) :
    d'.pressBound = true ∧ ∃ token, i = .onpress token := by
  cases h with
  | bindPress token => exact ⟨rfl, token, rfl⟩
  | none | bindTurn | returnTurn | returnPress => simp at hne

/-- R44: `TRET` alone changes `turnActive`, and it clears it. -/
theorem Dec.Commanded.turnActive_changed (h : d.Commanded (some i) d')
    (hne : d'.turnActive ≠ d.turnActive) : d'.turnActive = false ∧ i = .tret := by
  cases h with
  | returnTurn => exact ⟨rfl, rfl⟩
  | none | bindTurn | bindPress | returnPress => simp at hne

/-- R44: `PRET` alone changes `pressActive`, and it clears it. -/
theorem Dec.Commanded.pressActive_changed (h : d.Commanded (some i) d')
    (hne : d'.pressActive ≠ d.pressActive) : d'.pressActive = false ∧ i = .pret := by
  cases h with
  | returnPress => exact ⟨rfl, rfl⟩
  | none | bindTurn | bindPress | returnTurn => simp at hne

/-- A command writes the bindings and the active flags and nothing else of the decoder. -/
theorem Dec.Commanded.frame {i : Option Instr} (h : d.Commanded i d') :
    d' = { d with
      turnBound := d'.turnBound, turnToken := d'.turnToken, turnActive := d'.turnActive
      pressBound := d'.pressBound, pressToken := d'.pressToken, pressActive := d'.pressActive } := by
  cases h <;> rfl

end Commanded

/-! ## The reset values that are no plain field -/

theorem Drv.reset_memRead (a : Fin textLen) : Drv.reset.memRead a = 0x00#8 := rfl

theorem Drv.reset_shadow {p : Nat} (hp : p < maxDigits) : Drv.reset.shadow[p]? = some none := by
  simp [Drv.reset, hp]

theorem State.resetIn_outputs (cfg : Config) : (State.resetIn cfg).outputs
    = ⟨true, false, 0#3, true, true, false, false, false, 0#16, false, 0#16, false, false⟩ := rfl

/-! ## The obligations -/

/-- Settles O26. `exec_accepted` gives the frame of the driver and, as `Dec.Commanded`, the change of the decoder;
`exec_gateAndText` gives the two registers `Drv.Accepted` leaves open. -/
theorem commandsWriteOnlyTheirFlags : Obligations.CommandsWriteOnlyTheirFlags := by
  intro i s t h
  obtain ⟨hgate, htext⟩ := exec_gateAndText h
  obtain ⟨drv, dec, hexec, hdrv, hdec⟩ := exec_accepted i s
  obtain rfl : { s with drv := drv, dec := dec } = t := Host.Outcome.next.inj (hexec.symm.trans h)
  have hread (hi : ∀ index char, i ≠ .ldtxt index char) (a : Fin textLen) :
      drv.memRead a = s.drv.memRead a := by
    have hsame : drv.text = s.drv.text := by
      by_contra hne
      obtain ⟨index, char, rfl⟩ := htext hne
      exact hi index char rfl
    rw [Drv.memRead, hsame, Drv.memRead]
  exact ⟨hdrv.busy, hgate, hdec.turnBinding_changed, hdec.pressBinding_changed, hdec.turnActive_changed,
    hdec.pressActive_changed, hdec.frame,
    ⟨hdrv.stb, hdrv.clk, hdrv.dio, hdrv.wire, hdrv.shadow, hdrv.settle, hdrv.settling, hdrv.rspValid,
      hdrv.rspStatus⟩,
    hread, rfl, rfl, rfl⟩

/-- Settles O28: the fields by `State.resetIn`, the text cells, the shadow and the ports by the lemmas above. -/
theorem resetValues : Obligations.ResetValues := by
  rintro cfg s rfl
  exact ⟨rfl, rfl, rfl, rfl, rfl, Drv.reset_memRead, rfl, rfl, rfl, rfl, rfl, rfl, rfl, rfl, rfl, rfl, rfl, rfl,
    rfl, rfl, rfl, rfl, rfl, rfl, fun _ hp => Drv.reset_shadow hp, State.resetIn_outputs cfg⟩

end Sys2Proof.Machine
end

section
/-! PROOFS. R75 and R76: which words the decoder rejects. A mask of R73 is the opcode column together with the "0"
columns of R72, so a word that misses its row's match has a "0" column with a bit set. -/

namespace Sys2Proof

/-! ## Columns of a word -/

/-- The bits `hi` to `lo`: a column of R72 as a mask. -/
def columnMask (hi lo : Nat) : Word := (BitVec.allOnes (hi - lo + 1)).setWidth 32 <<< lo

/-- A column mask keeps of a word the bits of that slice, in their place. -/
theorem and_columnMask (w : Word) (hi lo : Nat) :
    w &&& columnMask hi lo = (w.extractLsb hi lo).setWidth 32 <<< lo := by
  apply BitVec.eq_of_getLsbD_eq
  intro i hi32
  simp only [columnMask, BitVec.getLsbD_and, BitVec.getLsbD_shiftLeft, BitVec.getLsbD_setWidth,
    BitVec.getLsbD_allOnes, BitVec.getLsbD_extractLsb]
  by_cases hlo : i < lo
  · simp [hlo]
  · simp [hlo, hi32, show i - lo < 32 by omega, show lo + (i - lo) = i by omega, Bool.and_comm]

/-- A column depends on its slice alone. -/
theorem and_columnMask_congr {w v : Word} {hi lo : Nat} (h : slice w hi lo = slice v hi lo) :
    w &&& columnMask hi lo = v &&& columnMask hi lo := by
  rw [and_columnMask, and_columnMask, BitVec.eq_of_toNat_eq h]

/-- The mask of several columns. -/
def columnsMask (cols : List (Nat × Nat)) : Word :=
  cols.foldr (fun c m => columnMask c.1 c.2 ||| m) 0#32

/-- Words that agree in every column agree under the mask of the columns. -/
theorem and_columnsMask_congr {w v : Word} {cols : List (Nat × Nat)}
    (h : ∀ c ∈ cols, slice w c.1 c.2 = slice v c.1 c.2) : w &&& columnsMask cols = v &&& columnsMask cols := by
  induction cols with
  | nil => simp [columnsMask]
  | cons c cols ih =>
    obtain ⟨hc, hcols⟩ := List.forall_mem_cons.mp h
    have hand (u : Word) :
        u &&& columnsMask (c :: cols) = (u &&& columnMask c.1 c.2) ||| (u &&& columnsMask cols) :=
      BitVec.and_or_distrib_left
    rw [hand, hand, and_columnMask_congr hc, ih hcols]

/-! ## The "0" columns of R72 -/

/-- The "0" columns of the format of a command opcode, format Z at the last (R72). -/
def zeroColumns : Nat → List (Nat × Nat)
  | 0x1 | 0x2 => [(27, 24), (7, 1)]
  | 0x3 => [(27, 24), (15, 8)]
  | 0x4 => [(27, 24), (15, 0)]
  | 0x5 => [(27, 26)]
  | 0x7 => [(27, 16), (7, 1)]
  | 0x8 | 0x9 => [(27, 16)]
  | _ => [(27, 0)]

/-- The "0" columns of a row of R73, those of its opcode's format. -/
def OpcodeRow.zeroColumns (r : OpcodeRow) : List (Nat × Nat) := Sys2Proof.zeroColumns (slice r.matchBits 31 28)

/-- R76: the mask bits of R73 are the opcode and the "0" columns. -/
theorem maskBits_eq_columnsMask : ∀ r ∈ opcodeTable, r.maskBits = columnsMask ((31, 28) :: r.zeroColumns) := by
  decide

theorem matchBits_and_maskBits : ∀ r ∈ opcodeTable, r.matchBits &&& r.maskBits = r.matchBits := by decide

theorem matchBits_zeroColumns :
    ∀ r ∈ opcodeTable, ∀ c ∈ r.zeroColumns, slice r.matchBits c.1 c.2 = 0 := by decide

/-- The opcodes of the rows are 0x1 to 0xB (R76). -/
theorem opcodeTable_opcode_range :
    ∀ r ∈ opcodeTable, 0x1 ≤ slice r.matchBits 31 28 ∧ slice r.matchBits 31 28 ≤ 0xB := by
  decide

/-- A word of a row's opcode whose "0" columns are all zero meets the row's mask and match (R73). -/
theorem and_maskBits_of_zeroColumns {w : Word} {r : OpcodeRow} (hr : r ∈ opcodeTable)
    (hop : slice w 31 28 = slice r.matchBits 31 28) (hzero : ∀ c ∈ r.zeroColumns, slice w c.1 c.2 = 0) :
    w &&& r.maskBits = r.matchBits := by
  have hagree : ∀ c ∈ (31, 28) :: r.zeroColumns, slice w c.1 c.2 = slice r.matchBits c.1 c.2 :=
    List.forall_mem_cons.mpr
      ⟨hop, fun c hc => (hzero c hc).trans (matchBits_zeroColumns r hr c hc).symm⟩
  calc w &&& r.maskBits = r.matchBits &&& r.maskBits := by
        rw [maskBits_eq_columnsMask r hr]; exact and_columnsMask_congr hagree
    _ = r.matchBits := matchBits_and_maskBits r hr

/-! ## The words the decoder rejects -/

/-- R75: the reserved opcodes. -/
theorem decode_reserved {w : Word} (h : slice w 31 28 ∈ [0x0, 0xC, 0xD, 0xE, 0xF]) :
    decode w = .error .reservedOpcode := by
  simp only [List.mem_cons, List.not_mem_nil, or_false] at h
  unfold decode
  rcases h with h | h | h | h | h <;> simp only [h]

/-- For an opcode of R73 the decoder tests the "0" columns of the opcode's format, whatever the operands. -/
theorem decode_eq_whenZero {w : Word} {op : Nat} (h : slice w 31 28 = op) (hlo : 0x1 ≤ op) (hhi : op ≤ 0xB) :
    ∃ i, decode w = whenZero ((zeroColumns op).map fun c => slice w c.1 c.2) i := by
  unfold decode
  rw [h]
  interval_cases op <;> exact ⟨_, rfl⟩

/-- R76: a word of a row's opcode that misses the row's match has a bit of a "0" column set. -/
theorem decode_mustBeZero {w : Word} {r : OpcodeRow} (hr : r ∈ opcodeTable)
    (hop : slice w 31 28 = slice r.matchBits 31 28) (hmiss : w &&& r.maskBits ≠ r.matchBits) :
    decode w = .error .mustBeZero := by
  obtain ⟨hlo, hhi⟩ := opcodeTable_opcode_range r hr
  obtain ⟨i, hdecode⟩ := decode_eq_whenZero hop hlo hhi
  rw [hdecode, whenZero_error]
  refine ⟨?_, rfl⟩
  by_contra hall
  refine hmiss (and_maskBits_of_zeroColumns hr hop fun c hc => ?_)
  simp only [Bool.not_eq_false, List.all_map, List.all_eq_true] at hall
  simpa using hall c hc

end Sys2Proof

namespace Sys2Proof.Machine

/-- A word the decoder rejects, for either reason, raises `IllegalCommand` (R153). -/
theorem acceptWord_of_decode_error {w : Word} {e : Illegal} (h : decode w = .error e) (s : State) :
    acceptWord w s = .next (s.withDrv (s.drv.raise .illegalCommand)) := by
  unfold acceptWord
  rw [h]

/-- Settles O5: the decoder rejects the words of both disjuncts, and raising a status writes `busy` and `seqStatus`
alone. -/
theorem illegalWordsChangeNothing : Obligations.IllegalWordsChangeNothing := by
  rintro w s (hreserved | ⟨r, hr, hop, hmiss⟩)
  · exact acceptWord_of_decode_error (decode_reserved hreserved) s
  · exact acceptWord_of_decode_error (decode_mustBeZero hr hop hmiss) s

end Sys2Proof.Machine
end

section
/-! PROOFS. The words of the display commands: what each column of a format of R72 holds, and the command the
decoder then gives (R73, R74). -/

namespace Sys2Proof

/-! ## The columns of the formats -/

theorem formatC_slices (op : BitVec 4) (digits intensity : Byte) (active : Bool) :
    slice (formatC op digits intensity active) 31 28 = op.toNat
    ∧ slice (formatC op digits intensity active) 27 24 = 0
    ∧ slice (formatC op digits intensity active) 23 16 = digits.toNat
    ∧ slice (formatC op digits intensity active) 15 8 = intensity.toNat
    ∧ slice (formatC op digits intensity active) 7 1 = 0
    ∧ slice (formatC op digits intensity active) 0 0 = (bitField active).toNat := by
  have := bitField_lt active
  simp only [slice_eq, formatC_toNat]
  omega

theorem formatB_slices (op : BitVec 4) (intensity : Byte) (active : Bool) :
    slice (formatB op intensity active) 31 28 = op.toNat
    ∧ slice (formatB op intensity active) 27 16 = 0
    ∧ slice (formatB op intensity active) 15 8 = intensity.toNat
    ∧ slice (formatB op intensity active) 7 1 = 0
    ∧ slice (formatB op intensity active) 0 0 = (bitField active).toNat := by
  have := bitField_lt active
  simp only [slice_eq, formatB_toNat]
  omega

/-- Format D has the columns of format C. -/
theorem formatD_eq_formatC (op : BitVec 4) (position value : Byte) (dp : Bool) :
    formatD op position value dp = formatC op position value dp := rfl

theorem formatT_slices (op : BitVec 4) (index char : Byte) :
    slice (formatT op index char) 31 28 = op.toNat
    ∧ slice (formatT op index char) 27 24 = 0
    ∧ slice (formatT op index char) 23 16 = index.toNat
    ∧ slice (formatT op index char) 15 8 = 0
    ∧ slice (formatT op index char) 7 0 = char.toNat := by
  simp only [slice_eq, formatT_toNat]
  omega

theorem formatS_slices (op : BitVec 4) (start : Byte) :
    slice (formatS op start) 31 28 = op.toNat
    ∧ slice (formatS op start) 27 24 = 0
    ∧ slice (formatS op start) 23 16 = start.toNat
    ∧ slice (formatS op start) 15 0 = 0 := by
  simp only [slice_eq, formatS_toNat]
  omega

theorem formatN_slices (op : BitVec 4) (dotMask : BitVec 6) (value : BitVec 20) :
    slice (formatN op dotMask value) 31 28 = op.toNat
    ∧ slice (formatN op dotMask value) 27 26 = 0
    ∧ slice (formatN op dotMask value) 25 20 = dotMask.toNat
    ∧ slice (formatN op dotMask value) 19 0 = value.toNat := by
  simp only [slice_eq, formatN_toNat]
  omega

/-! ## The commands the words give -/

theorem decode_formatC_init (digits intensity : Byte) (active : Bool) :
    decode (formatC 0x1#4 digits intensity active) = .ok (.init digits.toNat active intensity.toNat) := by
  simp [decode, formatC_slices, whenZero]

theorem decode_formatB_setbrt (intensity : Byte) (active : Bool) :
    decode (formatB 0x7#4 intensity active) = .ok (.setbrt active intensity.toNat) := by
  simp [decode, formatB_slices, whenZero]

theorem decode_formatD_setdigit (position value : Byte) (dp : Bool) :
    decode (formatD 0x2#4 position value dp) = .ok (.setdigit position.toNat value.toNat dp) := by
  simp [decode, formatD_eq_formatC, formatC_slices, whenZero]

theorem decode_formatT_ldtxt (index char : Byte) :
    decode (formatT 0x3#4 index char) = .ok (.ldtxt index.toNat char) := by
  obtain ⟨hop, hzero, hindex, hzero', hchar⟩ := formatT_slices 0x3#4 index char
  have hchar : (formatT 0x3#4 index char).extractLsb 7 0 = char := BitVec.eq_of_toNat_eq hchar
  simp [decode, hop, hzero, hindex, hzero', hchar, whenZero]

theorem decode_formatS_setstr (start : Byte) :
    decode (formatS 0x4#4 start) = .ok (.setstr start.toNat) := by
  simp [decode, formatS_slices, whenZero]

theorem decode_formatN_setnum (dotMask : BitVec 6) (value : BitVec 20) :
    decode (formatN 0x5#4 dotMask value) = .ok (.setnum value.toNat dotMask) := by
  obtain ⟨hop, hzero, hmask, hvalue⟩ := formatN_slices 0x5#4 dotMask value
  have hmask : (formatN 0x5#4 dotMask value).extractLsb 25 20 = dotMask := BitVec.eq_of_toNat_eq hmask
  simp [decode, hop, hzero, hmask, hvalue, whenZero]

end Sys2Proof
end

section
/-! PROOFS. The display commands (file `41_display_commands.md`). The gate and the checks in front of a command,
the bytes the configuration's tables give, and the two things a command can place: exchanges of its own, and a run
of position writes (`exec_writeSegs`). -/

namespace Sys2Proof.Machine

/-! ## The gate and the argument check -/

theorem Drv.gated_unconfigured {d body : Drv} (h : d.configured = false) :
    d.gated body = d.raise .configurationError := by
  simp [Drv.gated, h]

theorem Drv.gated_configured {d body : Drv} (h : d.configured = true) : d.gated body = body := by
  simp [Drv.gated, h]

theorem Drv.unlessInvalid_of {d body : Drv} {p : Prop} [Decidable p] (h : p) :
    d.unlessInvalid (decide p) body = d.raise .invalidArgument := by
  simp [Drv.unlessInvalid, h]

theorem Drv.unlessInvalid_of_not {d body : Drv} {p : Prop} [Decidable p] (h : ¬ p) :
    d.unlessInvalid (decide p) body = body := by
  simp [Drv.unlessInvalid, h]

/-! ## The tables -/

theorem modeByte_of_lookup {cfg : Config} {i : Fin 6} {mode : Byte} (h : cfg.modeBytes[i.val]? = some mode) :
    modeByte cfg i = mode := by
  simpa [modeByte] using h

/-- R86: the brightness byte is the entry of the table that `active` selects. -/
theorem ctrlByte_of_lookup {cfg : Config} {active : Bool} {intensity : Nat} {ctrl : Byte} (hi : intensity ≤ 7)
    (h : (if active then cfg.ctrlOn else cfg.ctrlOff)[intensity]? = some ctrl) :
    ctrlByte cfg active (BitVec.ofNat 3 intensity) = ctrl := by
  have hmod : intensity % 8 = intensity := by omega
  have hlt : intensity < 8 := by omega
  cases active <;> simpa [ctrlByte, hmod, hlt] using h

/-- R85: the point is merged when `dp` is 1. -/
theorem withDp_eq (cfg : Config) (code : SegCode) (dp : Bool) :
    withDp cfg code dp = if dp then code ||| 1#16 <<< cfg.dpBit else code := by
  cases dp <;> simp [withDp]

theorem writeSegMode_eq (cfg : Config) :
    writeSegMode cfg = if cfg.segBytes = .one then .fixed else .autoinc := by
  unfold writeSegMode
  cases cfg.segBytes <;> rfl

/-! ## The driver of the next state -/

/-- The outcome of a display command, whose arm of `exec` is `.next (s.withDrv d)`, from its driver in closed
form. -/
theorem next_withDrv {s : State} {d d' : Drv} (h : d = d') :
    (.next (s.withDrv d) : Host.Outcome State Fault Refusal) = .next (s.withDrv d') := by
  rw [h]

/-! ## What is placed, and what it leaves in `shadow` -/

theorem Drv.drain_shadow (d : Drv) :
    d.drain.shadow = markShadow d.shadow (d.settling ++ d.seq.flatMap SeqWrite.marks) := by
  rw [Drv.drain_eq]

/-- The marks of `ClearBurst` blank the positions below `digits` (R96). -/
theorem markShadow_clear (v : Vector (Option SegCode) 6) (digits p : Nat) (hp : p < maxDigits) :
    (markShadow v ((List.range digits).map (fun q => (q, blankCode))))[p]?
      = if p < digits then some (some 0#16) else v[p]? := by
  rw [markShadow_map v _ (fun _ => blankCode) p hp]
  simp only [List.mem_range, blankCode]

/-- A command that ends in a run of position writes (R95): the frames of the cells in order, the addressing mode,
and `shadow` after their marks. -/
theorem exec_writeSegs {i : Instr} {s : State} {cells : List (Nat × SegCode)} (hp : s.drv.NothingPending)
    (hexec : exec i s = .next (s.withDrv ((s.drv.writeSegs s.cfg cells).respond .ok))) :
    ∃ t, exec i s = .next t
      ∧ t = s.withDrv { s.drv with
          addrMode := (if cells = [] then s.drv.addrMode else if s.cfg.segBytes = .one then .fixed else .autoinc)
          busy := true, seqStatus := .ok, seq := t.drv.seq }
      ∧ pendingFrames t.drv.seq = some (cells.flatMap (fun c => positionFrames s.cfg c.1 c.2))
      ∧ t.drv.drain.shadow = markShadow s.drv.shadow cells := by
  obtain ⟨hseq, hsettling⟩ := hp
  rw [Drv.writeSegs_eq, hseq, List.nil_append, writeSegMode_eq] at hexec
  refine ⟨_, hexec, rfl, (ReadsAs.cells s.cfg cells).pendingFrames, ?_⟩
  simp only [Drv.drain_shadow, State.withDrv_drv, Drv.respond, hsettling, List.nil_append, marks_cells]

/-! ## `INIT` (R102) -/

/-- The line writes of `INIT`: the mode, the clear and the brightness exchange (R102). -/
def initWrites (cfg : Config) (mode ctrl : Byte) (digits : Nat) : List SeqWrite :=
  exchange cfg mode [] []
  ++ exchange cfg cfg.cmdDataAutoinc (cfg.addrBase :: List.replicate (2 * digits) 0x00#8)
      ((List.range digits).map (fun p => (p, blankCode)))
  ++ exchange cfg ctrl [] []

theorem ReadsAs.initWrites (cfg : Config) (mode ctrl : Byte) (digits : Nat) :
    ReadsAs (initWrites cfg mode ctrl digits) ([[mode]] ++ clearFrames cfg digits ++ [[ctrl]]) :=
  ((ReadsAs.exchange cfg mode [] []).append (ReadsAs.exchange cfg _ _ _)).append
    (ReadsAs.exchange cfg ctrl [] [])

theorem marks_initWrites (cfg : Config) (mode ctrl : Byte) (digits : Nat) :
    (initWrites cfg mode ctrl digits).flatMap SeqWrite.marks
      = (List.range digits).map (fun p => (p, blankCode)) := by
  simp only [initWrites, List.flatMap_append, marks_exchange, List.nil_append, List.append_nil]

theorem Drv.configure_inRange {cfg : Config} {d : Drv} {digits intensity : Nat} {active : Bool} {mode ctrl : Byte}
    (hseq : d.seq = []) (hlo : 1 ≤ digits) (hhi : digits ≤ 6) (hi : intensity ≤ 7)
    (hmode : cfg.modeBytes[digits - 1]? = some mode)
    (hctrl : (if active then cfg.ctrlOn else cfg.ctrlOff)[intensity]? = some ctrl) :
    d.configure cfg digits active intensity = { d with
      configured := true, digitCount := BitVec.ofNat 3 digits, active := active
      intensity := BitVec.ofNat 3 intensity, addrMode := .autoinc
      busy := true, seqStatus := .ok, seq := initWrites cfg mode ctrl digits } := by
  have hcount : (BitVec.ofNat 3 digits).toNat = digits := by simp only [BitVec.toNat_ofNat]; omega
  unfold Drv.configure
  rw [dif_pos ⟨hlo, hhi, hi⟩, modeByte_of_lookup hmode, ctrlByte_of_lookup hi hctrl]
  simp only [Drv.clearBurst, Drv.enqueue, Drv.respond, hcount, hseq, initWrites, List.nil_append]

theorem Drv.configure_outOfRange {cfg : Config} {d : Drv} {digits intensity : Nat} {active : Bool}
    (h : digits < 1 ∨ digits > 6 ∨ intensity > 7) :
    d.configure cfg digits active intensity = d.lockOut.raise .configurationError := by
  unfold Drv.configure
  rw [dif_neg (by simp only [maxDigits, maxIntensity]; omega)]

/-- Settles O11: `INIT` places `initWrites`, whose marks are those of the clear burst alone. -/
theorem initMeaning : Obligations.InitMeaning := by
  refine ⟨decode_formatC_init, ?_, fun s digits intensity active h => next_withDrv (Drv.configure_outOfRange h)⟩
  intro s digits intensity active mode ctrl ⟨hseq, hsettling⟩ hlo hhi hi hmode hctrl
  refine ⟨_, next_withDrv (Drv.configure_inRange hseq hlo hhi hi hmode hctrl), rfl,
    (ReadsAs.initWrites s.cfg mode ctrl digits).pendingFrames, fun p hp => ?_⟩
  simp only [Drv.drain_shadow, State.withDrv_drv, hsettling, List.nil_append, marks_initWrites,
    markShadow_clear _ digits p hp]

/-! ## `SETBRT` (R103) -/

theorem Drv.setBrightness_inRange {cfg : Config} {d : Drv} {active : Bool} {intensity : Nat} {ctrl : Byte}
    (hseq : d.seq = []) (hc : d.configured = true) (hi : intensity ≤ 7)
    (hctrl : (if active then cfg.ctrlOn else cfg.ctrlOff)[intensity]? = some ctrl) :
    d.setBrightness cfg active intensity = { d with
      active := active, intensity := BitVec.ofNat 3 intensity
      busy := true, seqStatus := .ok, seq := exchange cfg ctrl [] [] } := by
  unfold Drv.setBrightness
  rw [Drv.gated_configured hc, Drv.unlessInvalid_of_not (Nat.not_lt.mpr hi), ctrlByte_of_lookup hi hctrl]
  simp only [Drv.enqueue, Drv.respond, hseq, List.nil_append]

/-- Settles O12: the gate, the intensity check, then one exchange without marks. -/
theorem setbrtMeaning : Obligations.SetbrtMeaning := by
  refine ⟨decode_formatB_setbrt, fun s active intensity hc => next_withDrv (Drv.gated_unconfigured hc),
    fun s active intensity hc hi =>
      next_withDrv ((Drv.gated_configured hc).trans (Drv.unlessInvalid_of hi)), ?_⟩
  intro s active intensity ctrl ⟨hseq, hsettling⟩ hc hi hctrl
  refine ⟨_, next_withDrv (Drv.setBrightness_inRange hseq hc hi hctrl), rfl,
    (ReadsAs.exchange s.cfg ctrl [] []).pendingFrames, ?_⟩
  simp [Drv.drain_shadow, hsettling, marks_exchange, markShadow]

/-! ## `CLEAR` (R104) -/

/-- Settles O13: behind the gate stands the clear burst alone. -/
theorem clearMeaning : Obligations.ClearMeaning := by
  refine ⟨by decide, fun s hc => next_withDrv (Drv.gated_unconfigured hc), ?_⟩
  intro s ⟨hseq, hsettling⟩ hc
  have hplaced : ((s.drv.clearBurst s.cfg).respond .ok).seq = exchange s.cfg s.cfg.cmdDataAutoinc
      (s.cfg.addrBase :: List.replicate (2 * s.drv.digitCount.toNat) 0x00#8)
      ((List.range s.drv.digitCount.toNat).map (fun p => (p, blankCode))) := by simp [hseq]
  refine ⟨_, next_withDrv (Drv.gated_configured hc), rfl, ?_, fun p hp => ?_⟩
  · rw [State.withDrv_drv, hplaced]
    exact (ReadsAs.exchange s.cfg _ _ _).pendingFrames
  · rw [State.withDrv_drv, Drv.drain_shadow, hplaced, marks_exchange]
    simp [hsettling, markShadow_clear _ _ p hp]

/-! ## `SETDIGIT` (R105) -/

/-- Past the gate and the position, a value without a font code shows nothing. -/
theorem Drv.setDigit_noFont {cfg : Config} {d : Drv} {position value : Nat} {dp : Bool}
    (hc : d.configured = true) (hpos : position < d.digitCount.toNat) (hv : value > 15) :
    d.setDigit cfg position value dp = d.respond .ok := by
  unfold Drv.setDigit
  rw [Drv.gated_configured hc, Drv.unlessInvalid_of_not (Nat.not_le.mpr hpos), dif_neg (by omega)]

/-- Past the gate and the position, a value with a font code is one position write. -/
theorem Drv.setDigit_font {cfg : Config} {d : Drv} {position value : Nat} {dp : Bool} {font : SegCode}
    (hc : d.configured = true) (hpos : position < d.digitCount.toNat) (hfont : cfg.hexFont[value]? = some font) :
    d.setDigit cfg position value dp
      = (d.writeSegs cfg [(position, withDp cfg font dp)]).respond .ok := by
  obtain ⟨hv, hcode⟩ := Vector.getElem?_eq_some_iff.mp hfont
  have hcode : fontHex cfg ⟨value, hv⟩ = font := hcode
  unfold Drv.setDigit
  rw [Drv.gated_configured hc, Drv.unlessInvalid_of_not (Nat.not_le.mpr hpos), dif_pos hv, hcode]
  rfl

/-- Settles O14: past the checks `SETDIGIT` is a run of one position write. -/
theorem setdigitMeaning : Obligations.SetdigitMeaning := by
  refine ⟨decode_formatD_setdigit, fun s position value dp hc => next_withDrv (Drv.gated_unconfigured hc),
    fun s position value dp hc hpos =>
      next_withDrv ((Drv.gated_configured hc).trans (Drv.unlessInvalid_of hpos)),
    fun s position value dp hc hpos hv => next_withDrv (Drv.setDigit_noFont hc hpos hv), ?_⟩
  intro s position value dp font hp hc hpos hfont
  obtain ⟨t, hexec, ht, hframes, hshadow⟩ :=
    exec_writeSegs (i := .setdigit position value dp) hp (next_withDrv (Drv.setDigit_font hc hpos hfont))
  simp only [← withDp_eq]
  refine ⟨t, hexec, ht, by simpa using hframes, fun p hp => ?_⟩
  rw [hshadow]
  simpa using markShadow_map s.drv.shadow [position] (fun _ => withDp s.cfg font dp) p hp

/-! ## `LDTXT` (R106) -/

/-- Settles O15, by the laws of the text buffer. -/
theorem ldtxtMeaning : Obligations.LdtxtMeaning := by
  refine ⟨decode_formatT_ldtxt, fun s index char hi => next_withDrv (dif_neg (by simp only [textLen]; omega)), ?_⟩
  intro s index char htext hi
  have hlt : index < textLen := Nat.lt_succ_of_le hi
  refine ⟨_, next_withDrv (dif_pos hlt), rfl, Drv.memWrite_wf ⟨index, hlt⟩ char htext, fun a => ?_⟩
  have hread := Drv.memRead_memWrite ⟨index, hlt⟩ a char htext
  simp only [Fin.ext_iff] at hread
  exact hread

/-! ## `SETSTR` (R107) -/

section Scan

variable {cfg : Config} {d : Drv} {room k : Nat} {codes codes' : List SegCode}

theorem textCodes_of_scanText (h : scanText cfg d room 0 = some codes) : textCodes cfg d room codes := by
  obtain ⟨hroom, hlen, hcodes, hstop⟩ := scanText_some h
  simp only [Nat.zero_add] at hlen hcodes hstop
  have hlen : codes.length ≤ textLen := by simpa using hlen
  exact ⟨hroom, hlen, hcodes, hstop.imp_right (Or.imp_left (le_antisymm hlen))⟩

theorem textUnmappedAt_of_scanText (h : scanText cfg d room 0 = none) : ∃ k, textUnmappedAt cfg d room k := by
  obtain ⟨k, hroom, hlen, hchars, hmapped, hk⟩ := scanText_none h
  simp only [Nat.zero_add] at hlen hchars hmapped hk
  exact ⟨k, hroom, hlen, hchars, hmapped, hk⟩

/-- Codes that end before the last position and the last cell end at a terminator. -/
theorem textCodes_terminated (h : textCodes cfg d room codes) (hroom : codes.length < room)
    (hlen : codes.length < textLen) : textRead d.text codes.length = 0x00#8 := by
  obtain ⟨-, -, -, hstop⟩ := h
  exact (hstop.resolve_left hroom.ne).resolve_left hlen.ne

/-- `SETSTR` either writes codes or meets an unmapped character, not both. -/
theorem not_textUnmappedAt_of_textCodes (h : textCodes cfg d room codes) : ¬ textUnmappedAt cfg d room k := by
  intro ⟨hroom, hlen, hchars, _, hk⟩
  by_cases hlt : k < codes.length
  · obtain ⟨-, -, hcodes, -⟩ := h
    obtain ⟨-, hmapped⟩ := hcodes k _ (List.getElem?_eq_getElem hlt)
    rw [hk] at hmapped
    cases hmapped
  · exact hchars codes.length (by omega) (textCodes_terminated h (by omega) (by omega))

theorem textCodes_length_le (h : textCodes cfg d room codes) (h' : textCodes cfg d room codes') :
    codes'.length ≤ codes.length := by
  obtain ⟨hroom, hlen, hcodes, -⟩ := h'
  by_contra hlt
  have hlt : codes.length < codes'.length := by omega
  obtain ⟨hchar, -⟩ := hcodes codes.length _ (List.getElem?_eq_getElem hlt)
  exact hchar (textCodes_terminated h (by omega) (by omega))

/-- The codes of R107 are determined by the text, the font and the room. -/
theorem textCodes_unique (h : textCodes cfg d room codes) (h' : textCodes cfg d room codes') : codes' = codes := by
  refine List.ext_getElem (le_antisymm (textCodes_length_le h h') (textCodes_length_le h' h)) fun k hk' hk => ?_
  obtain ⟨-, -, hcodes, -⟩ := h
  obtain ⟨-, -, hcodes', -⟩ := h'
  have hc := (hcodes k _ (List.getElem?_eq_getElem hk)).2
  have hc' := (hcodes' k _ (List.getElem?_eq_getElem hk')).2
  exact Option.some.inj (hc'.symm.trans hc)

theorem scanText_of_textCodes (h : textCodes cfg d room codes) : scanText cfg d room 0 = some codes := by
  cases hscan : scanText cfg d room 0 with
  | none =>
    obtain ⟨k, hk⟩ := textUnmappedAt_of_scanText hscan
    exact absurd hk (not_textUnmappedAt_of_textCodes h)
  | some found => rw [textCodes_unique h (textCodes_of_scanText hscan)]

theorem scanText_of_textUnmappedAt (h : textUnmappedAt cfg d room k) : scanText cfg d room 0 = none := by
  cases hscan : scanText cfg d room 0 with
  | none => rfl
  | some codes => exact absurd h (not_textUnmappedAt_of_textCodes (textCodes_of_scanText hscan))

end Scan

theorem Drv.setString_unmapped {cfg : Config} {d : Drv} {start k : Nat} (hc : d.configured = true)
    (hstart : start < d.digitCount.toNat) (h : textUnmappedAt cfg d (d.digitCount.toNat - start) k) :
    d.setString cfg start = d.raise .invalidArgument := by
  unfold Drv.setString
  rw [Drv.gated_configured hc, Drv.unlessInvalid_of_not (Nat.not_le.mpr hstart), scanText_of_textUnmappedAt h]

theorem Drv.setString_shown {cfg : Config} {d : Drv} {start : Nat} {codes : List SegCode}
    (hc : d.configured = true) (hstart : start < d.digitCount.toNat)
    (h : textCodes cfg d (d.digitCount.toNat - start) codes) :
    d.setString cfg start = (d.writeSegs cfg (cellsFrom start codes)).respond .ok := by
  unfold Drv.setString
  rw [Drv.gated_configured hc, Drv.unlessInvalid_of_not (Nat.not_le.mpr hstart), scanText_of_textCodes h]

theorem cellsFrom_eq_nil {start : Nat} {codes : List SegCode} : cellsFrom start codes = [] ↔ codes = [] := by
  simp [cellsFrom]

/-- `shadow` after codes at consecutive positions from `start`. -/
theorem markShadow_cellsFrom (v : Vector (Option SegCode) 6) (start : Nat) (codes : List SegCode) (p : Nat)
    (hp : p < maxDigits) :
    (markShadow v (cellsFrom start codes))[p]?
      = if p < start then v[p]? else ((codes[p - start]?).map some).or v[p]? := by
  rw [cellsFrom_eq, markShadow_map v _ (fun p => (codes[p - start]?).getD 0#16) p hp]
  by_cases hlo : p < start
  · simp [hlo]
  · by_cases hhi : p - start < codes.length
    · simp [hlo, hhi, show start ≤ p ∧ p < start + codes.length by omega]
    · simp [hlo, hhi, show ¬ p < start + codes.length by omega]

/-- Settles O16: the scan of the text decides between the two cases, and the codes it finds are the only ones that
meet `textCodes`. -/
theorem setstrMeaning : Obligations.SetstrMeaning := by
  refine ⟨decode_formatS_setstr, fun s start hc => next_withDrv (Drv.gated_unconfigured hc),
    fun s start hc hstart => next_withDrv ((Drv.gated_configured hc).trans (Drv.unlessInvalid_of hstart)),
    fun s start k hc hstart h => next_withDrv (Drv.setString_unmapped hc hstart h), ?_, ?_⟩
  · intro s start codes hp hc hstart hcodes
    obtain ⟨t, hexec, ht, hframes, hshadow⟩ :=
      exec_writeSegs (i := .setstr start) hp (next_withDrv (Drv.setString_shown hc hstart hcodes))
    refine ⟨t, hexec, by simpa only [cellsFrom_eq_nil] using ht, ?_, fun p hp => ?_⟩
    · rwa [cellsFrom, List.flatMap_map] at hframes
    · rw [hshadow, markShadow_cellsFrom _ _ _ p hp]
      cases codes[p - start]? <;> rfl
  · intro cfg d room
    cases hscan : scanText cfg d room 0 with
    | some codes => exact .inl ⟨codes, textCodes_of_scanText hscan⟩
    | none => exact .inr (textUnmappedAt_of_scanText hscan)

/-! ## `SETNUM` (R109) -/

/-- The loop of `SETNUM`, from the ones on, gives each position its code of R109. -/
theorem renderNumber_dotted (cfg : Config) (dotMask : BitVec 6) (digits value : Nat) :
    renderNumber cfg dotMask digits true value
      = (List.range digits).reverse.map (fun p => (p, dottedNumberCode cfg value dotMask digits p)) := by
  rw [renderNumber_eq]
  refine List.map_congr_left fun p _ => ?_
  rw [withDp_eq]
  simp only [true_and]
  rfl

/-- Settles O17: a run of position writes, not empty by `CountOk`, whose codes are the loop's closed form. -/
theorem setnumMeaning : Obligations.SetnumMeaning := by
  refine ⟨decode_formatN_setnum, fun s value dotMask hc => next_withDrv (Drv.gated_unconfigured hc), ?_⟩
  intro s value dotMask hp hc hcount
  obtain ⟨hpos, -⟩ := hcount hc
  obtain ⟨t, hexec, ht, hframes, hshadow⟩ :=
    exec_writeSegs (i := .setnum value dotMask) hp (next_withDrv (Drv.gated_configured hc))
  rw [renderNumber_dotted] at ht hframes hshadow
  have hne : (List.range s.drv.digitCount.toNat).reverse.map
      (fun p => (p, dottedNumberCode s.cfg value dotMask s.drv.digitCount.toNat p)) ≠ [] := by
    simp only [ne_eq, List.map_eq_nil_iff, List.reverse_eq_nil_iff, List.range_eq_nil]
    omega
  rw [if_neg hne] at ht
  refine ⟨t, hexec, ht, by rwa [List.flatMap_map] at hframes, fun p hp => ?_⟩
  rw [hshadow, markShadow_map _ _ _ p hp]
  simp only [List.mem_reverse, List.mem_range]

end Sys2Proof.Machine
end

section
/-! PROOFS. The rotary decoder (file `42_decoder.md`): the turn step and the events, then the two channels at a
clock edge. At an edge without reset the decoder is that of `step_decoder`; `State.decoderEdge_turn` and
`State.decoderEdge_press` say that each channel's registers are what its own channel leaves. -/

namespace Sys2Proof.Machine

/-! ## The returns from the handlers (R113, R114) -/

/-- Settles O21: the word by the decoder on its one value, the meaning by `execTret`. -/
theorem tretMeaning : Obligations.TretMeaning :=
  ⟨by decide, fun _ => rfl⟩

/-- Settles O22: the word by the decoder on its one value, the meaning by `execPret`. -/
theorem pretMeaning : Obligations.PretMeaning :=
  ⟨by decide, fun _ => rfl⟩

/-! ## The turn step and the events -/

/-- Settles O41: the premises of each clause select its case of `Dec.turnStep_cases`. -/
theorem turnStepMeaning : Obligations.TurnStepMeaning := by
  intro threshold token level d
  rcases d.turnStep_cases threshold token level with ⟨hl, hc, h⟩ | ⟨hl, hc, h⟩ | ⟨hl, h⟩
  · exact ⟨fun _ _ => h, fun _ hc' => absurd hc hc', fun hl' => absurd hl hl'⟩
  · exact ⟨fun _ hc' => absurd hc' (by omega), fun _ _ => h, fun hl' => absurd hl hl'⟩
  · exact ⟨fun hl' => absurd hl' hl, fun hl' => absurd hl' hl, fun _ => h⟩

section Events

variable {threshold : Nat} {level : Bool} {d : Dec}

theorem Dec.fallA_unbound (hb : d.turnBound = false) : d.fallA threshold level = d := by
  simp [Dec.fallA, hb]

theorem Dec.fallA_active (hb : d.turnBound = true) (ha : d.turnActive = true) :
    d.fallA threshold level = { d with aPend := true } := by
  simp [Dec.fallA, hb, ha]

theorem Dec.fallA_processed (hb : d.turnBound = true) (ha : d.turnActive = false) :
    d.fallA threshold level = d.turnStep threshold d.turnToken level := by
  simp [Dec.fallA, hb, ha]

theorem Dec.serveA_enabled (hp : d.aPend = true) (ha : d.turnActive = false) :
    d.serveA threshold level = ({ d with aPend := false } : Dec).turnStep threshold d.turnToken level := by
  simp [Dec.serveA, hp, ha]

theorem Dec.fallSW_unbound (hb : d.pressBound = false) : d.fallSW = d := by
  simp [Dec.fallSW, hb]

theorem Dec.fallSW_active (hb : d.pressBound = true) (ha : d.pressActive = true) :
    d.fallSW = { d with swPend := true } := by
  simp [Dec.fallSW, hb, ha]

theorem Dec.fallSW_processed (hb : d.pressBound = true) (ha : d.pressActive = false) :
    d.fallSW = d.emitPress d.pressToken := by
  simp [Dec.fallSW, hb, ha]

theorem Dec.serveSW_enabled (hp : d.swPend = true) (ha : d.pressActive = false) :
    d.serveSW = ({ d with swPend := false } : Dec).emitPress d.pressToken := by
  simp [Dec.serveSW, hp, ha]

end Events

/-- Settles O42, branch by branch of `Dec.fallA` and `Dec.serveA`. -/
theorem turnEventsMeaning : Obligations.TurnEventsMeaning :=
  fun _ _ _ => ⟨Dec.fallA_unbound, Dec.fallA_active, Dec.fallA_processed, Dec.serveA_enabled⟩

/-- Settles O43, branch by branch of `Dec.fallSW` and `Dec.serveSW`; a press emitted is `Dec.emitPress`. -/
theorem pressEventsMeaning : Obligations.PressEventsMeaning :=
  fun _ => ⟨Dec.fallSW_unbound, Dec.fallSW_active, Dec.fallSW_processed, Dec.serveSW_enabled⟩

/-! ## The decoder at an edge without reset -/

/-- The command accepted in the cycle of `s`, if any. -/
def State.commandNow (s : State) : Option Instr := if s.accepts then commandOf s.inp.cmd else none

theorem commandOf_eq_some {w : Word} {i : Instr} : commandOf w = some i ↔ decode w = .ok i := by
  unfold commandOf
  cases decode w <;> simp

theorem tretNow_eq (s : State) : tretNow s = decide (s.commandNow = some .tret) := by
  unfold tretNow State.commandNow
  cases s.accepts <;> simp [commandOf_eq_some]

/-- At an edge without reset the pulses end, the command accepted in the cycle takes its effect, then the channels
run. -/
theorem step_decoder {s t : State} (h : step s = .next t) (hr : s.inp.rst = false) :
    ∃ d, (s.dec.endPulses s.freeCount).Commanded s.commandNow d ∧ t.dec = s.decoderEdge d := by
  obtain ⟨-, ⟨hr', -⟩ | ⟨-, ha, -, d, -, -, hcmd, rfl⟩ | ⟨-, ha, rfl⟩⟩ := step_cases h
  · rw [hr] at hr'; cases hr'
  · exact ⟨d, by rwa [State.commandNow, if_pos ha], rfl⟩
  · refine ⟨_, ?_, rfl⟩
    rw [State.commandNow, if_neg (by simp [ha])]
    exact .none _ (by simp) (by simp) (by simp)

section Commanded

variable {d d' : Dec} {i : Option Instr}

/-- The `active'` of R131. -/
theorem Dec.Commanded.turnActive_eq (h : d.Commanded i d') :
    d'.turnActive = (d.turnActive && !decide (i = some .tret)) := by
  cases h with
  | none _ _ ht _ => simp [ht]
  | bindTurn | bindPress | returnTurn | returnPress => simp

/-- The `active'` of R132. -/
theorem Dec.Commanded.pressActive_eq (h : d.Commanded i d') :
    d'.pressActive = (d.pressActive && !decide (i = some .pret)) := by
  cases h with
  | none _ _ _ hp => simp [hp]
  | bindTurn | bindPress | returnTurn | returnPress => simp

/-- What the turn channel reads besides `active'` no command writes. -/
theorem Dec.Commanded.turnSource (h : d.Commanded i d') :
    d'.aPend = d.aPend ∧ d'.aPrev = d.aPrev ∧ d'.lastLevel = d.lastLevel ∧ d'.pendingClicks = d.pendingClicks
    ∧ d'.turnValid = d.turnValid := by
  rw [h.frame]
  exact ⟨rfl, rfl, rfl, rfl, rfl⟩

/-- What the button channel reads besides `active'` no command writes. -/
theorem Dec.Commanded.pressSource (h : d.Commanded i d') :
    d'.swPend = d.swPend ∧ d'.swPrev = d.swPrev ∧ d'.pressValid = d.pressValid := by
  rw [h.frame]
  exact ⟨rfl, rfl, rfl⟩

end Commanded

/-! ## Each channel writes its own registers (R66, R162) -/

/-- What a turn step can write. -/
theorem Dec.turnStep_frame (threshold : Nat) (token : Token) (level : Bool) (d : Dec) :
    ∀ e, e = d.turnStep threshold token level → e = { d with
      lastLevel := e.lastLevel, pendingClicks := e.pendingClicks, turnActive := e.turnActive
      turnValid := e.turnValid, turnDir := e.turnDir, turnTokenOut := e.turnTokenOut } := by
  rintro e rfl
  rcases d.turnStep_cases threshold token level with ⟨-, -, h⟩ | ⟨-, -, h⟩ | ⟨-, h⟩ <;> rw [h]

/-- What the turn channel can write. -/
theorem Dec.turnChannel_frame (threshold : Nat) (r : Sampled) (d : Dec) :
    ∀ e, e = d.turnChannel threshold r → e = { d with
      aPend := e.aPend, aPrev := e.aPrev
      lastLevel := e.lastLevel, pendingClicks := e.pendingClicks, turnActive := e.turnActive
      turnValid := e.turnValid, turnDir := e.turnDir, turnTokenOut := e.turnTokenOut } := by
  rintro e rfl
  rcases d.turnChannel_cases threshold r with ⟨-, -, h⟩ | ⟨-, h⟩ <;> rw [h]
  rw [Dec.turnStep_frame _ _ _ _ _ rfl]

/-- What the button channel can write. -/
theorem Dec.pressChannel_frame (r : Sampled) (d : Dec) :
    ∀ e, e = d.pressChannel r → e = { d with
      swPend := e.swPend, swPrev := e.swPrev
      pressActive := e.pressActive, pressValid := e.pressValid, pressTokenOut := e.pressTokenOut } := by
  rintro e rfl
  rcases d.pressChannel_cases r with ⟨-, -, h⟩ | ⟨-, h⟩ <;> rw [h]

/-- After the edge the turn source's registers are those its channel leaves. -/
theorem State.decoderEdge_turn (s : State) (d : Dec) :
    ∀ e, e = d.turnChannel s.cfg.threshold s.sampled →
      (s.decoderEdge d).aPend = e.aPend ∧ (s.decoderEdge d).aPrev = e.aPrev
      ∧ (s.decoderEdge d).lastLevel = e.lastLevel ∧ (s.decoderEdge d).pendingClicks = e.pendingClicks
      ∧ (s.decoderEdge d).turnActive = e.turnActive ∧ (s.decoderEdge d).turnValid = e.turnValid
      ∧ (s.decoderEdge d).turnDir = e.turnDir ∧ (s.decoderEdge d).turnTokenOut = e.turnTokenOut := by
  rintro e rfl
  rw [State.decoderEdge, Dec.pressChannel_frame _ _ _ rfl]
  exact ⟨rfl, rfl, rfl, rfl, rfl, rfl, rfl, rfl⟩

/-- After the edge the button's registers are those its channel leaves: the turn channel, which runs before it,
writes none of the registers it reads. -/
theorem State.decoderEdge_press (s : State) (d : Dec) :
    ∀ e, e = d.pressChannel s.sampled →
      (s.decoderEdge d).swPend = e.swPend ∧ (s.decoderEdge d).swPrev = e.swPrev
      ∧ (s.decoderEdge d).pressActive = e.pressActive ∧ (s.decoderEdge d).pressValid = e.pressValid
      ∧ (s.decoderEdge d).pressTokenOut = e.pressTokenOut := by
  rintro e rfl
  rw [State.decoderEdge, Dec.turnChannel_frame _ _ _ _ rfl, Dec.pressChannel, Dec.pressChannel]
  dsimp only
  split <;> exact ⟨rfl, rfl, rfl, rfl, rfl⟩

/-! ## The branches of the channels (R131, R132) -/

section Branches

variable {threshold : Nat} {r : Sampled} {d : Dec}

theorem Dec.turnChannel_served (hp : (d.aPend || (r.turnBound && d.aPrev && !r.aNow)) = true)
    (ha : d.turnActive = false) : d.turnChannel threshold r
      = { ({ d with aPend := false } : Dec).turnStep threshold r.turnToken r.bNow with aPrev := r.aNow } := by
  obtain ⟨-, -, h⟩ := (d.turnChannel_cases threshold r).resolve_right fun hheld => hheld.1 ⟨hp, ha⟩
  exact h

theorem Dec.turnChannel_held
    (h : ¬ ((d.aPend || (r.turnBound && d.aPrev && !r.aNow)) = true ∧ d.turnActive = false)) :
    d.turnChannel threshold r
      = { d with aPend := d.aPend || (r.turnBound && d.aPrev && !r.aNow), aPrev := r.aNow } := by
  obtain ⟨-, h⟩ := (d.turnChannel_cases threshold r).resolve_left fun ⟨hp, ha, _⟩ => h ⟨hp, ha⟩
  exact h

theorem Dec.pressChannel_held
    (h : ¬ ((d.swPend || (r.pressBound && d.swPrev && !r.swNow)) = true ∧ d.pressActive = false)) :
    d.pressChannel r
      = { d with swPend := d.swPend || (r.pressBound && d.swPrev && !r.swNow), swPrev := r.swNow } := by
  obtain ⟨-, h⟩ := (d.pressChannel_cases r).resolve_left fun ⟨hp, ha, _⟩ => h ⟨hp, ha⟩
  exact h

end Branches

/-- Settles O44: the turn channel runs on the registers of `s` with the rule's `active'`, and a served edge is a
turn step, by its three cases. -/
theorem turnChannelCycle : Obligations.TurnChannelCycle := by
  rintro s t _ _ _ _ hr h rfl rfl rfl rfl
  obtain ⟨d, hcmd, hdec⟩ := step_decoder h hr
  have hactive : d.turnActive = (s.dec.turnActive && !tretNow s) := by
    rw [tretNow_eq]
    exact hcmd.turnActive_eq
  obtain ⟨hpend, hprev, hlast, hclicks, hvalid⟩ :
      d.aPend = s.dec.aPend ∧ d.aPrev = s.dec.aPrev ∧ d.lastLevel = s.dec.lastLevel
      ∧ d.pendingClicks = s.dec.pendingClicks ∧ d.turnValid = false := hcmd.turnSource
  obtain ⟨tPend, tPrev, tLast, tClicks, tActive, tValid, tDir, tToken⟩ := s.decoderEdge_turn d _ rfl
  rw [hdec, tPend, tPrev, tLast, tClicks, tActive, tValid, tDir, tToken, ← hpend, ← hprev, ← hlast, ← hclicks,
    ← hactive]
  refine ⟨rfl, fun hp ha => ?_, fun hn => ?_⟩
  · rw [Dec.turnChannel_served hp ha]
    obtain ⟨hemit, hcount, hreset⟩ :=
      turnStepMeaning s.cfg.threshold s.sampled.turnToken s.sampled.bNow { d with aPend := false }
    refine ⟨?_, rfl, fun hl hc => ?_, fun hl hc => ?_, fun hl => ?_⟩
    · rw [Dec.turnStep_frame _ _ _ _ _ rfl]
    · rw [hemit hl hc]
      exact ⟨rfl, rfl, rfl, rfl, rfl⟩
    · rw [hcount hl hc]
      exact ⟨rfl, ha, hvalid⟩
    · rw [hreset hl]
      exact ⟨rfl, ha, hvalid⟩
  · rw [Dec.turnChannel_held hn]
    exact ⟨rfl, rfl, hvalid, rfl, rfl⟩

/-- Settles O48. By the invariant an unbound source is neither pending nor active, so at the edge its channel takes
the branch that is not served: for the turn source this is the last clause of `turnChannelCycle`. -/
theorem unboundSourceDropsEdges : Obligations.UnboundSourceDropsEdges := by
  refine ⟨fun _ _ _ => ⟨Dec.fallA_unbound, Dec.fallSW_unbound⟩, ?_⟩
  intro s t ⟨_, _, ⟨hpend, hswPend, hactive, hpressActive⟩, _, _⟩ hr h
  refine ⟨fun hb => ?_, fun hb => ?_⟩
  · have hpend : s.dec.aPend = false := by simpa [hb] using hpend
    have hactive : s.dec.turnActive = false := by simpa [hb] using hactive
    obtain ⟨-, -, hheld⟩ := turnChannelCycle s t _ _ _ _ hr h rfl rfl rfl rfl
    obtain ⟨tPend, tActive, tValid, tLast, tClicks⟩ := hheld (by simp [hb, hpend])
    exact ⟨tLast, tClicks, by simpa [hb, hpend] using tPend, by simpa [hactive] using tActive, tValid⟩
  · have hpend : s.dec.swPend = false := by simpa [hb] using hswPend
    have hactive : s.dec.pressActive = false := by simpa [hb] using hpressActive
    obtain ⟨d, hcmd, hdec⟩ := step_decoder h hr
    obtain ⟨dPend, -, dValid⟩ := hcmd.pressSource
    have hnone : (d.swPend || (s.sampled.pressBound && d.swPrev && !s.sampled.swNow)) = false := by
      simp [dPend, hpend, State.sampled, hb]
    obtain ⟨tPend, -, tActive, tValid, -⟩ := s.decoderEdge_press d _ rfl
    rw [hdec, tPend, tActive, tValid, Dec.pressChannel_held (by simp [hnone])]
    exact ⟨hnone, by simp [hcmd.pressActive_eq, hactive], dValid⟩

end Sys2Proof.Machine
end

section
/-! PROOFS. The statuses (R149 to R152): with which status each command ends, said once as `Drv.Ends` for the rules
a meaning is built from and as `exec_ends` for all commands; then the code a response carries. -/

namespace Sys2Proof.Machine

/-! ## How a command can end -/

/-- What becomes of the driver `d` when a command ends: `setup` says when it raises `ConfigurationError`, `argument`
when it raises `InvalidArgument`, which changes nothing; otherwise it succeeds. -/
inductive Drv.Ends (d : Drv) (setup argument : Prop) : Drv → Prop where
  | ok {d' : Drv} (hsetup : ¬ setup) (hargument : ¬ argument) (h : d'.seqStatus = .ok) : Drv.Ends d setup argument d'
  | configurationError {d' : Drv} (hsetup : setup) (hargument : ¬ argument)
      (h : d'.seqStatus = .configurationError) : Drv.Ends d setup argument d'
  | invalidArgument (hsetup : ¬ setup) (hargument : argument) :
      Drv.Ends d setup argument (d.raise .invalidArgument)

section Ends

variable {d d' body : Drv} {setup argument : Prop}

theorem Drv.Ends.configurationError_iff (h : d.Ends setup argument d') :
    d'.seqStatus = .configurationError ↔ setup := by
  cases h with
  | ok hsetup _ hst => simp [hst, hsetup]
  | configurationError hsetup _ hst => simp [hst, hsetup]
  | invalidArgument hsetup _ => simp [hsetup]

theorem Drv.Ends.invalidArgument_iff (h : d.Ends setup argument d') :
    d'.seqStatus = .invalidArgument ↔ argument := by
  cases h with
  | ok _ hargument hst => simp [hst, hargument]
  | configurationError _ hargument hst => simp [hst, hargument]
  | invalidArgument _ hargument => simp [hargument]

theorem Drv.Ends.eq_raise (h : d.Ends setup argument d') (hst : d'.seqStatus = .invalidArgument) :
    d' = d.raise .invalidArgument := by
  cases h with
  | ok _ _ hok => simp [hok] at hst
  | configurationError _ _ herr => simp [herr] at hst
  | invalidArgument => rfl

theorem Drv.Ends.ne_displayRangeError (h : d.Ends setup argument d') : d'.seqStatus ≠ .displayRangeError := by
  cases h with
  | ok _ _ hst | configurationError _ _ hst => simp [hst]
  | invalidArgument => simp

/-- A body without a check of its own. -/
theorem Drv.Ends.success (h : d'.seqStatus = .ok) : d.Ends False False d' := .ok id id h

/-- The gate is the first check (R101 (2)). -/
theorem Drv.Ends.gated (h : d.Ends False argument body) :
    d.Ends (d.configured = false) (d.configured = true ∧ argument) (d.gated body) := by
  cases hc : d.configured with
  | false =>
    rw [Drv.gated_unconfigured hc]
    exact .configurationError rfl (by simp) rfl
  | true =>
    rw [Drv.gated_configured hc]
    simpa using h

/-- The argument check is the next one (R101 (3)). -/
theorem Drv.Ends.unlessInvalid {p : Prop} [Decidable p] (h : d.Ends False argument body) :
    d.Ends False (p ∨ argument) (d.unlessInvalid (decide p) body) := by
  by_cases hp : p
  · rw [Drv.unlessInvalid_of hp]
    exact .invalidArgument id (.inl hp)
  · rw [Drv.unlessInvalid_of_not hp]
    simpa [hp] using h

/-- A command whose checks are the gate and one argument check. -/
theorem Drv.Ends.gated_unlessInvalid {p : Prop} [Decidable p] (h : body.seqStatus = .ok) :
    d.Ends (d.configured = false) (d.configured = true ∧ p) (d.gated (d.unlessInvalid (decide p) body)) := by
  simpa only [or_false] using (Drv.Ends.success h).unlessInvalid (p := p) |>.gated

/-- A command whose only check is the gate. -/
theorem Drv.Ends.gated_success (h : body.seqStatus = .ok) : d.Ends (d.configured = false) False (d.gated body) := by
  simpa only [and_false] using (Drv.Ends.success h).gated

end Ends

/-! ## The seven display commands -/

theorem Drv.configure_valid {digits intensity : Nat} (hlo : 1 ≤ digits) (hhi : digits ≤ 6) (hi : intensity ≤ 7)
    (cfg : Config) (active : Bool) (d : Drv) :
    (d.configure cfg digits active intensity).seqStatus = .ok
    ∧ (d.configure cfg digits active intensity).configured = true := by
  unfold Drv.configure
  rw [dif_pos ⟨hlo, hhi, hi⟩]
  exact ⟨rfl, rfl⟩

theorem Drv.configure_ends (cfg : Config) (digits : Nat) (active : Bool) (intensity : Nat) (d : Drv) :
    d.Ends (digits < 1 ∨ digits > 6 ∨ intensity > 7) False (d.configure cfg digits active intensity) := by
  by_cases h : digits < 1 ∨ digits > 6 ∨ intensity > 7
  · rw [Drv.configure_outOfRange h]
    exact .configurationError h id rfl
  · obtain ⟨hok, -⟩ := Drv.configure_valid (by omega : 1 ≤ digits) (by omega) (by omega : intensity ≤ 7) cfg active d
    exact .ok h id hok

theorem Drv.setDigit_ends (cfg : Config) (position value : Nat) (dp : Bool) (d : Drv) :
    d.Ends (d.configured = false) (d.configured = true ∧ position ≥ d.digitCount.toNat)
      (d.setDigit cfg position value dp) := by
  apply Drv.Ends.gated_unlessInvalid
  split <;> rfl

theorem Drv.loadText_ends (index : Nat) (char : Byte) (d : Drv) :
    d.Ends False (index > 7) (d.loadText index char) := by
  unfold Drv.loadText
  split
  case isTrue h => exact .ok id (Nat.not_lt.mpr (Nat.le_of_lt_succ h)) rfl
  case isFalse h => exact .invalidArgument id (Nat.not_lt.mp h)

theorem Drv.setString_ends (cfg : Config) (start : Nat) (d : Drv) :
    d.Ends (d.configured = false) (d.configured = true ∧ (start ≥ d.digitCount.toNat
      ∨ ∃ k, textUnmappedAt cfg d (d.digitCount.toNat - start) k)) (d.setString cfg start) := by
  apply Drv.Ends.gated
  apply Drv.Ends.unlessInvalid
  split
  case h_1 hscan => exact .invalidArgument id (textUnmappedAt_of_scanText hscan)
  case h_2 hscan =>
    exact .ok id (fun ⟨_, hk⟩ => not_textUnmappedAt_of_textCodes (textCodes_of_scanText hscan) hk) rfl

theorem Drv.setNumber_ends (cfg : Config) (value : Nat) (dotMask : BitVec 6) (d : Drv) :
    d.Ends (d.configured = false) False (d.setNumber cfg value dotMask) :=
  .gated_success rfl

theorem Drv.clearDisplay_ends (cfg : Config) (d : Drv) :
    d.Ends (d.configured = false) False (d.clearDisplay cfg) :=
  .gated_success rfl

theorem Drv.setBrightness_ends (cfg : Config) (active : Bool) (intensity : Nat) (d : Drv) :
    d.Ends (d.configured = false) (d.configured = true ∧ intensity > 7) (d.setBrightness cfg active intensity) :=
  .gated_unlessInvalid rfl

/-! ## All commands -/

/-- When a command raises `ConfigurationError` (R150). -/
def raisesConfigurationError (d : Drv) : Instr → Prop
  | .init digits _ intensity => digits < 1 ∨ digits > 6 ∨ intensity > 7
  | .clear | .setdigit _ _ _ | .setstr _ | .setnum _ _ | .setbrt _ _ => d.configured = false
  | .ldtxt _ _ | .onturn _ | .onpress _ | .tret | .pret => False

/-- When a command raises `InvalidArgument` (R151). -/
def raisesInvalidArgument (cfg : Config) (d : Drv) : Instr → Prop
  | .setdigit position _ _ => d.configured = true ∧ position ≥ d.digitCount.toNat
  | .setstr start => d.configured = true ∧ (start ≥ d.digitCount.toNat
      ∨ ∃ k, textUnmappedAt cfg d (d.digitCount.toNat - start) k)
  | .ldtxt index _ => index > 7
  | .setbrt _ intensity => d.configured = true ∧ intensity > 7
  | .init _ _ _ | .setnum _ _ | .clear | .onturn _ | .onpress _ | .tret | .pret => False

theorem exec_ends {i : Instr} {s t : State} (h : exec i s = .next t) :
    s.drv.Ends (raisesConfigurationError s.drv i) (raisesInvalidArgument s.cfg s.drv i) t.drv := by
  cases i <;> obtain rfl := Host.Outcome.next.inj h
  case init => exact Drv.configure_ends _ _ _ _ _
  case setdigit => exact Drv.setDigit_ends _ _ _ _ _
  case ldtxt => exact Drv.loadText_ends _ _ _
  case setstr => exact Drv.setString_ends _ _ _
  case setnum => exact Drv.setNumber_ends _ _ _ _
  case clear => exact Drv.clearDisplay_ends _ _
  case setbrt => exact Drv.setBrightness_ends _ _ _ _
  case onturn | onpress | tret | pret => exact .success rfl

/-! ## `ConfigurationError` (R150) -/

/-- Settles O23: `exec_ends` gives the condition; the clearing of `configured` is `Drv.configure_outOfRange`. -/
theorem configurationErrorExactlyWhen : Obligations.ConfigurationErrorExactlyWhen := by
  refine ⟨fun i s t h => (exec_ends h).configurationError_iff.trans ?_,
    fun s digits intensity active hlo hhi hi => ⟨_, rfl, Drv.configure_valid hlo hhi hi s.cfg active s.drv⟩⟩
  cases i
  case init digits active intensity =>
    have hcleared (hbad : digits < 1 ∨ digits > 6 ∨ intensity > 7) : t.drv.configured = false := by
      obtain rfl := Host.Outcome.next.inj h
      rw [State.withDrv_drv, Drv.configure_outOfRange hbad]
      rfl
    constructor
    · exact fun hbad => .inl ⟨digits, active, intensity, rfl, hbad, hcleared hbad⟩
    · rintro (⟨_, _, _, hi, hbad, -⟩ | ⟨hg, -⟩)
      · cases hi
        exact hbad
      · cases hg
  all_goals simp [raisesConfigurationError, gatedCommand]

/-! ## `InvalidArgument` (R151) -/

/-- A command that raises `InvalidArgument` is a display command, so the driver is all it could change. -/
theorem exec_invalidArgument {i : Instr} {s t : State} (h : exec i s = .next t)
    (hst : t.drv.seqStatus = .invalidArgument) : t = s.withDrv (s.drv.raise .invalidArgument) := by
  have hdrv := (exec_ends h).eq_raise hst
  have hraises := (exec_ends h).invalidArgument_iff.mp hst
  cases i <;> obtain rfl := Host.Outcome.next.inj h
  case onturn | onpress | tret | pret => exact hraises.elim
  all_goals exact congrArg s.withDrv hdrv

/-- Settles O24: `exec_ends` gives the condition, and `exec_invalidArgument` that nothing changes. -/
theorem invalidArgumentExactlyWhen : Obligations.InvalidArgumentExactlyWhen := by
  refine fun i s t h => ⟨(exec_ends h).invalidArgument_iff.trans ?_, exec_invalidArgument h⟩
  cases i <;> simp [raisesInvalidArgument]

/-! ## The code of a response (R149) -/

theorem Status.code_le_four (st : Status) : st.code.toNat ≤ 4 := by
  cases st <;> decide

theorem acceptWord_ne_displayRangeError {w : Word} {s t : State} (h : acceptWord w s = .next t) :
    t.drv.seqStatus ≠ .displayRangeError := by
  cases hdec : decode w with
  | ok i =>
    rw [acceptWord, hdec] at h
    exact (exec_ends h).ne_displayRangeError
  | error e =>
    obtain rfl := Host.Outcome.next.inj ((acceptWord_of_decode_error hdec s).symm.trans h)
    simp

/-- A pulsed response carries the code of the status kept for it. -/
def Drv.ResponseCoded (d : Drv) : Prop := d.rspValid = true → d.rspStatus = d.seqStatus.code

theorem Drv.ResponseCoded.of_no_response {d : Drv} (h : d.rspValid = false) : d.ResponseCoded :=
  fun hv => absurd (h.symm.trans hv) Bool.false_ne_true

theorem Drv.ResponseCoded.respondAtOnce {d : Drv} (hold : Bool) (h : d.ResponseCoded) :
    (d.respondAtOnce hold).ResponseCoded := by
  unfold Drv.respondAtOnce
  split
  · exact fun _ => rfl
  · exact h

/-- The sequencer leaves the response port alone or pulses the response. -/
theorem Drv.ResponseCoded.sequencer {d : Drv} (cfg : Config) (hold responding : Bool) (h : d.ResponseCoded) :
    (d.sequencer cfg hold responding).ResponseCoded := by
  obtain ⟨hd, -⟩ | ⟨-, -, hd⟩ | ⟨-, -, -, -, hd⟩ | ⟨-, -, -, -, -, hd⟩ | ⟨-, -, -, -, w, rest, -, hd⟩ :=
    Drv.sequencer_cases cfg hold responding d <;> rw [hd]
  · exact h
  · exact h
  · exact h
  · exact fun _ => rfl
  · simpa [Drv.ResponseCoded] using h

theorem step_responseCoded {s t : State} (h : step s = .next t) : t.drv.ResponseCoded := by
  obtain ⟨-, ⟨-, rfl⟩ | ⟨-, -, drv, dec, -, hacc, -, rfl⟩ | ⟨-, -, rfl⟩⟩ := step_cases h
  · exact .of_no_response rfl
  · exact (Drv.ResponseCoded.of_no_response hacc.rspValid).respondAtOnce s.inp.hold
  · exact (Drv.ResponseCoded.of_no_response (Drv.endPulse_rspValid _ _)).sequencer s.cfg s.inp.hold s.drv.rspValid

/-- Settles O53: the codes by `Status.code`, the rest by the lemmas above. -/
theorem statusCodes : Obligations.StatusCodes := by
  refine ⟨rfl, rfl, rfl, rfl, rfl, fun _ _ _ => acceptWord_ne_displayRangeError, fun s t h hv => ?_⟩
  have hcode := step_responseCoded h hv
  exact ⟨hcode, hcode ▸ Status.code_le_four _⟩

end Sys2Proof.Machine
end

section
/-! PROOFS. Encoding and decoding undo each other (R72 to R77): on the fields of each format, then on commands and
words, then against the match and mask rows of R73. -/

namespace Sys2Proof

/-! ## Numbers in their fields -/

theorem toNat_ofNat_of_fitsByte {n : Nat} (h : fitsByte n = true) : (BitVec.ofNat 8 n).toNat = n := by
  simpa [fitsByte] using h

theorem toNat_ofNat_of_fitsValue {n : Nat} (h : fitsValue n = true) : (BitVec.ofNat 20 n).toNat = n := by
  simpa [fitsValue] using h

theorem toNat_bitField_bitOf {n : Nat} (h : n < 2) : (bitField (bitOf n)).toNat = n := by
  interval_cases n <;> rfl

/-! ## Decoding the word of a command -/

theorem formatH_slices (op : BitVec 4) (token : Token) :
    slice (formatH op token) 31 28 = op.toNat
    ∧ slice (formatH op token) 27 16 = 0
    ∧ slice (formatH op token) 15 0 = token.toNat := by
  simp only [slice_eq, formatH_toNat]
  omega

theorem decode_formatH_onturn (token : Token) : decode (formatH 0x8#4 token) = .ok (.onturn token) := by
  obtain ⟨hop, hzero, htoken⟩ := formatH_slices 0x8#4 token
  have htoken : (formatH 0x8#4 token).extractLsb 15 0 = token := BitVec.eq_of_toNat_eq htoken
  simp [decode, hop, hzero, htoken, whenZero]

theorem decode_formatH_onpress (token : Token) : decode (formatH 0x9#4 token) = .ok (.onpress token) := by
  obtain ⟨hop, hzero, htoken⟩ := formatH_slices 0x9#4 token
  have htoken : (formatH 0x9#4 token).extractLsb 15 0 = token := BitVec.eq_of_toNat_eq htoken
  simp [decode, hop, hzero, htoken, whenZero]

/-- Settles O1: each format gives its fields back, and a well-formed number is the number of its field. -/
theorem decodeOfEncodeIsIdentity : Obligations.DecodeOfEncodeIsIdentity := by
  intro i hwf
  cases i with
  | init digits active intensity =>
    obtain ⟨hd, hi⟩ := Bool.and_eq_true_iff.mp hwf
    rw [encode, decode_formatC_init, toNat_ofNat_of_fitsByte hd, toNat_ofNat_of_fitsByte hi]
  | setdigit position value dp =>
    obtain ⟨hp, hv⟩ := Bool.and_eq_true_iff.mp hwf
    rw [encode, decode_formatD_setdigit, toNat_ofNat_of_fitsByte hp, toNat_ofNat_of_fitsByte hv]
  | ldtxt index char => rw [encode, decode_formatT_ldtxt, toNat_ofNat_of_fitsByte hwf]
  | setstr start => rw [encode, decode_formatS_setstr, toNat_ofNat_of_fitsByte hwf]
  | setnum value dotMask => rw [encode, decode_formatN_setnum, toNat_ofNat_of_fitsValue hwf]
  | clear => decide
  | setbrt active intensity => rw [encode, decode_formatB_setbrt, toNat_ofNat_of_fitsByte hwf]
  | onturn token => exact decode_formatH_onturn token
  | onpress token => exact decode_formatH_onpress token
  | tret => decide
  | pret => decide

/-! ## Encoding the fields of a word

A word whose "0" columns are zero is the format of its own fields (R72). -/

section Fields

variable {w : Word} {op : BitVec 4}

theorem ofNat_slice_toNat {n : Nat} (w : Word) (hi lo : Nat) (h : hi - lo + 1 = n) :
    (BitVec.ofNat n (slice w hi lo)).toNat = slice w hi lo := by
  subst h
  rw [BitVec.toNat_ofNat, Nat.mod_eq_of_lt (slice_lt w hi lo)]

theorem toNat_bitField_slice (w : Word) : (bitField (bitOf (slice w 0 0))).toNat = slice w 0 0 :=
  toNat_bitField_bitOf (slice_lt w 0 0)

theorem formatC_of_fields (hop : slice w 31 28 = op.toNat) (hhi : slice w 27 24 = 0) (hlo : slice w 7 1 = 0) :
    formatC op (.ofNat 8 (slice w 23 16)) (.ofNat 8 (slice w 15 8)) (bitOf (slice w 0 0)) = w := by
  have := w.isLt
  apply BitVec.eq_of_toNat_eq
  rw [formatC_toNat, ofNat_slice_toNat w 23 16 rfl, ofNat_slice_toNat w 15 8 rfl, toNat_bitField_slice, ← hop]
  simp only [slice_eq] at *
  omega

theorem formatB_of_fields (hop : slice w 31 28 = op.toNat) (hhi : slice w 27 16 = 0) (hlo : slice w 7 1 = 0) :
    formatB op (.ofNat 8 (slice w 15 8)) (bitOf (slice w 0 0)) = w := by
  have := w.isLt
  apply BitVec.eq_of_toNat_eq
  rw [formatB_toNat, ofNat_slice_toNat w 15 8 rfl, toNat_bitField_slice, ← hop]
  simp only [slice_eq] at *
  omega

theorem formatT_of_fields (hop : slice w 31 28 = op.toNat) (hhi : slice w 27 24 = 0) (hlo : slice w 15 8 = 0) :
    formatT op (.ofNat 8 (slice w 23 16)) (w.extractLsb 7 0) = w := by
  have := w.isLt
  apply BitVec.eq_of_toNat_eq
  rw [formatT_toNat, ofNat_slice_toNat w 23 16 rfl, ← slice, ← hop]
  simp only [slice_eq] at *
  omega

theorem formatS_of_fields (hop : slice w 31 28 = op.toNat) (hhi : slice w 27 24 = 0) (hlo : slice w 15 0 = 0) :
    formatS op (.ofNat 8 (slice w 23 16)) = w := by
  have := w.isLt
  apply BitVec.eq_of_toNat_eq
  rw [formatS_toNat, ofNat_slice_toNat w 23 16 rfl, ← hop]
  simp only [slice_eq] at *
  omega

theorem formatH_of_fields (hop : slice w 31 28 = op.toNat) (hhi : slice w 27 16 = 0) :
    formatH op (w.extractLsb 15 0) = w := by
  have := w.isLt
  apply BitVec.eq_of_toNat_eq
  rw [formatH_toNat, ← slice, ← hop]
  simp only [slice_eq] at *
  omega

theorem formatN_of_fields (hop : slice w 31 28 = op.toNat) (hhi : slice w 27 26 = 0) :
    formatN op (w.extractLsb 25 20) (.ofNat 20 (slice w 19 0)) = w := by
  have := w.isLt
  apply BitVec.eq_of_toNat_eq
  rw [formatN_toNat, ofNat_slice_toNat w 19 0 rfl, ← slice, ← hop]
  simp only [slice_eq] at *
  omega

theorem formatZ_of_fields (hop : slice w 31 28 = op.toNat) (hzero : slice w 27 0 = 0) : formatZ op = w := by
  have := w.isLt
  apply BitVec.eq_of_toNat_eq
  rw [formatZ_toNat, ← hop]
  simp only [slice_eq] at *
  omega

theorem fitsByte_slice (w : Word) (hi lo : Nat) (h : hi - lo + 1 = 8) : fitsByte (slice w hi lo) = true := by
  simpa [fitsByte, h] using slice_lt w hi lo

theorem fitsValue_slice (w : Word) : fitsValue (slice w 19 0) = true := by
  simpa [fitsValue] using slice_lt w 19 0

end Fields

/-- Settles O2: by the opcode, whose "0" columns the decoder has tested; the format of the fields is the word. -/
theorem encodeOfDecodeIsIdentity : Obligations.EncodeOfDecodeIsIdentity := by
  intro w i h
  unfold decode at h
  split at h
  case h_12 => cases h
  all_goals
    rename_i hop
    obtain ⟨hzero, rfl⟩ := whenZero_ok.mp h
    simp only [List.all_cons, List.all_nil, Bool.and_true, Bool.and_eq_true, beq_iff_eq] at hzero
    simp only [Instr.wellFormed, encode, Bool.and_eq_true, fitsByte_slice, fitsValue_slice, and_self, true_and]
  case h_1 | h_2 => exact formatC_of_fields hop hzero.1 hzero.2
  case h_3 => exact formatT_of_fields hop hzero.1 hzero.2
  case h_4 => exact formatS_of_fields hop hzero.1 hzero.2
  case h_5 => exact formatN_of_fields hop hzero
  case h_7 => exact formatB_of_fields hop hzero.1 hzero.2
  case h_8 | h_9 => exact formatH_of_fields hop hzero
  case h_6 | h_10 | h_11 => exact formatZ_of_fields hop hzero

/-! ## The rows of R73 -/

/-- A column under a mask of ones keeps its value. -/
theorem slice_and_of_ones {w m : Word} {hi lo : Nat} (h : m.extractLsb hi lo = BitVec.allOnes _) :
    slice (w &&& m) hi lo = slice w hi lo := by
  rw [slice, BitVec.extractLsb_and, h, BitVec.and_allOnes, slice]

/-- R76: the mask of a row has ones in the opcode column and in the "0" columns. -/
theorem maskBits_ones : ∀ r ∈ opcodeTable, ∀ c ∈ (31, 28) :: r.zeroColumns,
    r.maskBits.extractLsb c.1 c.2 = BitVec.allOnes _ := by
  decide

/-- A word that a row selects has the row's opcode and its "0" columns. -/
theorem slice_of_selects {w : Word} {r : OpcodeRow} (hr : r ∈ opcodeTable) (h : r.selects w = true) :
    ∀ c ∈ (31, 28) :: r.zeroColumns, slice w c.1 c.2 = slice r.matchBits c.1 c.2 := by
  intro c hc
  rw [← of_decide_eq_true h, slice_and_of_ones (maskBits_ones r hr c hc)]

/-- A word that a row selects decodes (R73, R76). -/
theorem decode_of_selects {w : Word} {r : OpcodeRow} (hr : r ∈ opcodeTable) (h : r.selects w = true) :
    ∃ i, decode w = .ok i := by
  obtain ⟨hop, hcols⟩ := List.forall_mem_cons.mp (slice_of_selects hr h)
  obtain ⟨hlo, hhi⟩ := opcodeTable_opcode_range r hr
  obtain ⟨i, hdecode⟩ := decode_eq_whenZero hop hlo hhi
  refine ⟨i, hdecode.trans (whenZero_ok.mpr ⟨?_, rfl⟩)⟩
  rw [List.all_map, List.all_eq_true]
  exact fun c hc => beq_iff_eq.mpr ((hcols c hc).trans (matchBits_zeroColumns r hr c hc))

/-- The row of every command (R73). -/
theorem encodesItsOpcode (i : Instr) : Laws.EncodesItsOpcode.Statement i := by
  cases i with
  | init digits active intensity => exact Laws.EncodesItsOpcode.init digits active intensity
  | setdigit position value dp => exact Laws.EncodesItsOpcode.setdigit position value dp
  | ldtxt index char => exact Laws.EncodesItsOpcode.ldtxt index char
  | setstr start => exact Laws.EncodesItsOpcode.setstr start
  | setnum value dotMask => exact Laws.EncodesItsOpcode.setnum value dotMask
  | clear => exact Laws.EncodesItsOpcode.clear
  | setbrt active intensity => exact Laws.EncodesItsOpcode.setbrt active intensity
  | onturn token => exact Laws.EncodesItsOpcode.onturn token
  | onpress token => exact Laws.EncodesItsOpcode.onpress token
  | tret => exact Laws.EncodesItsOpcode.tret
  | pret => exact Laws.EncodesItsOpcode.pret

/-- A word that decodes is selected by the row with the command's mnemonic. -/
theorem selects_of_decode {w : Word} {i : Instr} (h : decode w = .ok i) :
    ∃ r ∈ opcodeTable, r.selects w = true ∧ r.mnemonic = i.mnemonic := by
  obtain ⟨r, hr, hname, hop⟩ := encodesItsOpcode i
  obtain ⟨-, hword⟩ := encodeOfDecodeIsIdentity w i h
  rw [hword] at hop
  refine ⟨r, hr, decide_eq_true ?_, hname⟩
  by_contra hmiss
  rw [decode_mustBeZero hr hop hmiss] at h
  cases h

/-- No two rows of R73 have one opcode. -/
theorem opcodeTable_opcode_inj : ∀ r ∈ opcodeTable, ∀ r' ∈ opcodeTable,
    slice r.matchBits 31 28 = slice r'.matchBits 31 28 → r = r' := by
  decide

/-- No two rows select one word. -/
theorem selects_unique {w : Word} {r r' : OpcodeRow} (hr : r ∈ opcodeTable) (hr' : r' ∈ opcodeTable)
    (h : r.selects w = true) (h' : r'.selects w = true) : r = r' := by
  have hop := slice_of_selects hr h (31, 28) List.mem_cons_self
  have hop' := slice_of_selects hr' h' (31, 28) List.mem_cons_self
  exact opcodeTable_opcode_inj r hr r' hr' (hop.symm.trans hop')

/-- Settles O4: `selects_of_decode` gives the row, `selects_unique` that it is the only one, and a word that a row
selects decodes. -/
theorem decodingIsTotalByTheTable : Obligations.DecodingIsTotalByTheTable := by
  intro w
  cases h : decode w with
  | ok i =>
    obtain ⟨r, hr, hsel, hname⟩ := selects_of_decode h
    exact .inl ⟨i, rfl, r, hr, hsel, hname, fun r' hr' hsel' => selects_unique hr' hr hsel' hsel⟩
  | error e =>
    refine .inr ⟨⟨e, rfl⟩, fun r hr => Bool.eq_false_iff.mpr fun hsel => ?_⟩
    obtain ⟨i, hi⟩ := decode_of_selects hr hsel
    rw [h] at hi
    cases hi

/-- Settles O3: the decoder evaluated on one word of each command. -/
theorem writtenOutWordsDecode : Obligations.WrittenOutWordsDecode := by
  unfold Obligations.WrittenOutWordsDecode
  decide

end Sys2Proof
end

section
/-! PROOFS. The serial protocol (file `40_serial_protocol.md`): what the observer reads off frames and exchanges,
and the cells the bytes of a position write and of the clear burst address. -/

namespace Sys2Proof.Machine

/-! ## Frames (R93, R97) -/

/-- Frames sent one after the other read back in order. -/
theorem ReadsAs.frames (frames : List (List Byte)) :
    ReadsAs (frames.flatMap (fun bytes => Machine.frame bytes [])) frames := by
  induction frames with
  | nil => exact ReadsAs.nil
  | cons bytes frames ih => exact (ReadsAs.frame bytes []).append ih

/-- Settles O6, by induction on the list of frames: each leaves the observer at the levels it was met at. -/
theorem framesReadBackAsSent : Obligations.FramesReadBackAsSent :=
  fun frames => (ReadsAs.frames frames).pendingFrames

/-- Settles O7: 24 line writes a byte, and the two of the strobe. -/
theorem frameLineWriteCount : Obligations.FrameLineWriteCount :=
  frame_length

/-- Settles O8: the trace evaluated, read by the observer and by `wireLevel`. -/
theorem workedFrameExample : Obligations.WorkedFrameExample := by
  rintro trace rfl
  decide

/-! ## Exchanges (R94) -/

section Exchange

variable {cfg : Config} {c : Byte} {rest : List Byte}

theorem exchangeFrames_split (hrest : rest ≠ []) (hsplit : cfg.splitCmdFrame = true) :
    exchangeFrames cfg c rest = [[c], rest] := by
  simp [exchangeFrames, hrest, hsplit]

theorem exchangeFrames_joined (hrest : rest ≠ []) (hsplit : cfg.splitCmdFrame = false) :
    exchangeFrames cfg c rest = [c :: rest] := by
  simp [exchangeFrames, hrest, hsplit]

/-- However an exchange is framed, its bytes are sent in order. -/
theorem exchangeFrames_flatten (cfg : Config) (c : Byte) (rest : List Byte) :
    (exchangeFrames cfg c rest).flatten = c :: rest := by
  unfold exchangeFrames
  split
  · next hrest => rw [hrest]; rfl
  · split <;> simp

end Exchange

/-- Settles O9: the observer reads an exchange as the model's `exchangeFrames`, whose three branches the clauses
are. -/
theorem exchangeFrames_holds : Obligations.ExchangeFrames := by
  intro cfg c rest marks
  refine ⟨exchangeFrames cfg c rest, (ReadsAs.exchange cfg c rest marks).pendingFrames,
    exchangeFrames_flatten cfg c rest, ?_, exchangeFrames_split, exchangeFrames_joined⟩
  rintro rfl
  rfl

/-! ## Cells of the controller (R51, R53, R58) -/

/-- R54: position `p` is addressed at `2p` from `ADDR_BASE`, whose low nibble is free. -/
theorem addrByte_offset {cfg : Config} {p : Nat} (hbase : cfg.addrBase &&& 0x0F#8 = 0#8) (hp : p < maxDigits) :
    (addrByte cfg p - cfg.addrBase).toNat = 2 * p := by
  have hmerge : ∀ base : Byte, base &&& 0x0F#8 = 0#8 → ∀ p : Fin 6,
      ((base ||| BitVec.ofNat 8 (p.val <<< 1)) - base).toNat = 2 * p.val := by decide
  exact hmerge cfg.addrBase hbase ⟨p, hp⟩

section DispWrites

variable {cfg : Config} {a b : Byte} {data : List Byte} {offset : Nat}

/-- R51: after the auto-increment command the data bytes go to consecutive cells. -/
theorem dispWrites_autoinc (h : (a - cfg.addrBase).toNat = offset) :
    dispWrites cfg (cfg.cmdDataAutoinc :: a :: data)
      = some (data.zipIdx.map (fun e => (offset + e.2, e.1))) := by
  simp [dispWrites, h]

/-- R51: after the fixed command the one data byte goes to the addressed cell. -/
theorem dispWrites_fixed (hne : cfg.cmdDataAutoinc ≠ cfg.cmdDataFixed) (h : (a - cfg.addrBase).toNat = offset) :
    dispWrites cfg [cfg.cmdDataFixed, a, b] = some [(offset, b)] := by
  simp [dispWrites, h, hne.symm]

end DispWrites

/-- What R10 says of the wire bytes. -/
theorem Config.wf_wireBytes {cfg : Config} (h : cfg.wf = true) :
    cfg.addrBase &&& 0x0F#8 = 0#8 ∧ cfg.cmdDataAutoinc ≠ cfg.cmdDataFixed := by
  simp only [Config.wf, Bool.and_eq_true, decide_eq_true_eq] at h
  tauto

/-- Settles O10: the bytes of a position write are the data-setting byte, the address byte and the code. -/
theorem positionWriteLandsAtItsCells : Obligations.PositionWriteLandsAtItsCells := by
  intro cfg p s hwf hp
  obtain ⟨hbase, hne⟩ := Config.wf_wireBytes hwf
  have hoffset := addrByte_offset hbase hp
  refine ⟨hoffset, fun hseg => ?_, fun hseg => ?_⟩
  · have hframes : (positionFrames cfg p s).flatten = [cfg.cmdDataFixed, addrByte cfg p, s.extractLsb 7 0] := by
      simp only [positionFrames, hseg, exchangeFrames_flatten]
    rw [hframes, dispWrites_fixed hne hoffset]
  · have hframes : (positionFrames cfg p s).flatten
        = [cfg.cmdDataAutoinc, addrByte cfg p, s.extractLsb 7 0, s.extractLsb 15 8] := by
      simp only [positionFrames, hseg, exchangeFrames_flatten]
    rw [hframes, dispWrites_autoinc hoffset]
    rfl

/-- Settles O56: the address byte is `ADDR_BASE` itself, so the zeros go to the cells from 0 on. -/
theorem clearBurstLandsAtItsCells : Obligations.ClearBurstLandsAtItsCells := by
  intro cfg digits
  rw [clearFrames, exchangeFrames_flatten, dispWrites_autoinc (offset := 0) (by simp)]
  congr 1
  apply List.ext_getElem <;> simp

end Sys2Proof.Machine
end

section
/-! PROOFS. What commands leave alone: the bindings of `ONTURN` and `ONPRESS`, raised statuses (R101, R148), the
debounce state (R128); and the expansion of `SETTEXT` (R79). -/

namespace Sys2Proof.Machine

/-! ## The bindings (R111, R112) -/

/-- Settles O19: the word by its fields, the meaning by `execOnturn`. -/
theorem onturnMeaning : Obligations.OnturnMeaning :=
  ⟨decode_formatH_onturn, fun _ _ => rfl⟩

/-- Settles O20: the word by its fields, the meaning by `execOnpress`. -/
theorem onpressMeaning : Obligations.OnpressMeaning :=
  ⟨decode_formatH_onpress, fun _ _ => rfl⟩

/-! ## The debounce state (R128) -/

/-- Settles O27, command by command: a display command takes nothing of the decoder, and the four commands of the
decoder write a binding or an active flag. -/
theorem commandsIgnoreDebounceState : Obligations.CommandsIgnoreDebounceState := by
  intro i s t level clicks aPend swPend h
  cases i <;> obtain rfl := Host.Outcome.next.inj h <;> exact ⟨rfl, rfl, rfl, rfl, rfl⟩

/-! ## Raised statuses -/

/-- A `ConfigurationError` locks the block out when `INIT` raises it, and changes nothing when the gate does
(R102, R150). -/
theorem exec_configurationError {i : Instr} {s t : State} (h : exec i s = .next t)
    (hst : t.drv.seqStatus = .configurationError) :
    t = s.withDrv (s.drv.raise .configurationError)
    ∨ (∃ digits active intensity, i = .init digits active intensity)
      ∧ t = s.withDrv (s.drv.lockOut.raise .configurationError) := by
  have hraises := (exec_ends h).configurationError_iff.mp hst
  cases i <;> obtain rfl := Host.Outcome.next.inj h
  case init => exact .inr ⟨⟨_, _, _, rfl⟩, congrArg s.withDrv (Drv.configure_outOfRange hraises)⟩
  case clear | setdigit | setstr | setnum | setbrt =>
    exact .inl (congrArg s.withDrv (Drv.gated_unconfigured hraises))
  case ldtxt | onturn | onpress | tret | pret => exact hraises.elim

/-- A command that does not succeed raises its status and changes nothing but, for `INIT`, the gate. -/
theorem exec_raised {i : Instr} {s t : State} (h : exec i s = .next t) (hst : t.drv.seqStatus ≠ .ok) :
    t = s.withDrv (s.drv.raise t.drv.seqStatus)
    ∨ (∃ digits active intensity, i = .init digits active intensity)
      ∧ t = s.withDrv (s.drv.lockOut.raise t.drv.seqStatus) := by
  generalize hd : t.drv = d at *
  have hends := exec_ends h
  rw [hd] at hends
  cases hends with
  | ok _ _ hok => exact absurd hok hst
  | configurationError _ _ hc => rw [hc]; exact exec_configurationError h (by rw [hd, hc])
  | invalidArgument => exact .inl (exec_invalidArgument h (by rw [hd]; rfl))

/-- Settles O25: a word that encodes no command raises `IllegalCommand`, and a command that does not succeed
changes what `exec_raised` says. -/
theorem raisedStatusChangesNothing : Obligations.RaisedStatusChangesNothing := by
  intro w s t h
  refine ⟨acceptWord_ne_displayRangeError h, fun hst => ?_⟩
  cases hdec : decode w with
  | ok i =>
    rw [acceptWord, hdec] at h
    rcases exec_raised h hst with ht | ⟨⟨digits, active, intensity, rfl⟩, ht⟩
    · exact ⟨_, ht, .inl rfl⟩
    · exact ⟨false, ht, .inr ⟨rfl, digits, active, intensity, rfl⟩⟩
  | error e =>
    obtain rfl := Host.Outcome.next.inj ((acceptWord_of_decode_error hdec s).symm.trans h)
    exact ⟨_, rfl, .inl rfl⟩

/-! ## A run of cells of the text buffer -/

/-- The text buffer with `chars` in its cells from `n` on. -/
def textStore (n : Nat) : List Byte → List Host.Cell → List Host.Cell
  | [], m => m
  | c :: cs, m => textStore (n + 1) cs (textWrite m n c)

theorem textRead_textStore {n : Nat} {chars : List Byte} {m : List Host.Cell} (hwf : textWf m = true)
    (hlen : n + chars.length ≤ textLen) (a : Nat) :
    textRead (textStore n chars m) a = if a < n then textRead m a else chars[a - n]?.getD (textRead m a) := by
  induction chars generalizing n m with
  | nil => simp [textStore]
  | cons c cs ih =>
    rw [List.length_cons] at hlen
    rw [textStore, ih (textWf_textWrite hwf (by omega)) (by omega), textRead_textWrite hwf]
    rcases Nat.lt_trichotomy a n with h | rfl | h
    · simp [h, show a < n + 1 by omega, h.ne]
    · simp
    · rw [if_neg (by omega), if_neg (by omega), if_neg (by omega), show a - n = (a - (n + 1)) + 1 by omega,
        List.getElem?_cons_succ]

/-! ## `SETTEXT` (R79) -/

/-- The loads of characters into the cells from `n` on. -/
def loadsFrom (n : Nat) (chars : List Byte) : List Instr :=
  (chars.zipIdx n).map (fun p => Instr.ldtxt p.2 p.1)

/-- The characters `SETTEXT` loads: those given and, below 8, the terminator. -/
def terminated (chars : List Byte) : List Byte :=
  chars ++ if chars.length < textLen then [0x00#8] else []

theorem setText_eq (chars : List Byte) (start : Nat) :
    Instr.setText chars start = loadsFrom 0 (terminated chars) ++ [Instr.setstr start] := by
  unfold Instr.setText loadsFrom terminated
  by_cases h : chars.length < textLen
  · simp [h, List.zipIdx_append]
  · simp [h]

section Terminated

variable {chars : List Byte}

theorem terminated_ne_nil (chars : List Byte) : terminated chars ≠ [] := by
  cases chars <;> simp [terminated]

theorem terminated_length_le (h : chars.length ≤ textLen) : (terminated chars).length ≤ textLen := by
  unfold terminated
  split
  · rw [List.length_append, List.length_singleton]; omega
  · simpa using h

theorem terminated_getElem? (hlen : chars.length ≤ textLen) (a : Fin textLen) (old : Byte) :
    (terminated chars)[a.val]?.getD old
      = (chars[a.val]?).getD (if a.val = chars.length then 0x00#8 else old) := by
  have ha := a.isLt
  rcases Nat.lt_trichotomy a.val chars.length with h | h | h
  · simp [terminated, List.getElem?_append_left h, h]
  · have hlt : chars.length < textLen := by omega
    simp [terminated, h, hlt]
  · have hlt : chars.length < textLen := by omega
    have hend : chars.length + 1 ≤ a.val := h
    simp [terminated, hlt, h.ne', List.getElem?_eq_none, hend, h.le]

end Terminated

theorem loadsFrom_wellFormed {n : Nat} {chars : List Byte} (h : n + chars.length ≤ textLen) :
    ∀ i ∈ loadsFrom n chars, i.wellFormed = true := by
  intro i hi
  obtain ⟨⟨c, k⟩, hk, rfl⟩ := List.mem_map.mp hi
  have hlt : k < n + chars.length := List.snd_lt_add_of_mem_zipIdx hk
  simp only [textLen] at h
  simp only [Instr.wellFormed, fitsByte, decide_eq_true_eq]
  omega

/-- A run of loads, not empty, leaves the characters in their cells and a status. -/
theorem execAll_loadsFrom {n : Nat} {chars : List Byte} (hne : chars ≠ []) (hlen : n + chars.length ≤ textLen)
    (rest : List Instr) (s : State) :
    execAll (loadsFrom n chars ++ rest) s
      = execAll rest (s.withDrv { s.drv with
          busy := true, seqStatus := .ok, text := textStore n chars s.drv.text }) := by
  induction chars generalizing n s with
  | nil => exact absurd rfl hne
  | cons c cs ih =>
    rw [List.length_cons] at hlen
    have hload : exec (.ldtxt n c) s = .next (s.withDrv { s.drv with
        busy := true, seqStatus := .ok, text := textWrite s.drv.text n c }) :=
      next_withDrv (dif_pos (by omega))
    have hstep : execAll (loadsFrom n (c :: cs) ++ rest) s
        = execAll (loadsFrom (n + 1) cs ++ rest) (s.withDrv { s.drv with
            busy := true, seqStatus := .ok, text := textWrite s.drv.text n c }) := by
      show execAll (.ldtxt n c :: (loadsFrom (n + 1) cs ++ rest)) s = _
      rw [execAll, hload]
    rw [hstep]
    by_cases hcs : cs = []
    · subst hcs; rfl
    · exact ih hcs (by omega) _

theorem execAll_singleton (i : Instr) (s : State) : execAll [i] s = exec i s := by
  rw [execAll]
  cases exec i s <;> rfl

/-- Settles O18: the expansion is one run of loads, then `SETSTR`. -/
theorem setTextExpansion : Obligations.SetTextExpansion := by
  intro chars start s hwf htext
  simp only [setTextWellFormed, Bool.and_eq_true, decide_eq_true_eq] at hwf
  obtain ⟨⟨hlen, -⟩, hstart⟩ := hwf
  have hcells : 0 + (terminated chars).length ≤ textLen := by
    rw [Nat.zero_add]; exact terminated_length_le hlen
  rw [setText_eq]
  refine ⟨?_, _, (execAll_loadsFrom (terminated_ne_nil chars) hcells _ s).trans (execAll_singleton _ _), rfl,
    fun a => ?_⟩
  · rw [List.forall_mem_append, List.forall_mem_singleton]
    exact ⟨loadsFrom_wellFormed hcells, hstart⟩
  · rw [State.withDrv_drv, Drv.memRead, textRead_textStore htext hcells, if_neg (Nat.not_lt_zero _), Nat.sub_zero,
      terminated_getElem? hlen]
    cases chars[a.val]? <;> rfl

end Sys2Proof.Machine
end

section
/-! PROOFS. The rotary decoder beyond one channel: the button channel at a clock edge and the hold-off of both
sources, the events the channels refine, the order of the channels, runs of turn steps, and the synchronisers. -/

namespace Sys2Proof.Machine

/-! ## The button channel at a clock edge (R132) -/

theorem pretNow_eq (s : State) : pretNow s = decide (s.commandNow = some .pret) := by
  unfold pretNow State.commandNow
  cases s.accepts <;> simp [commandOf_eq_some]

theorem Dec.pressChannel_served {r : Sampled} {d : Dec}
    (hp : (d.swPend || (r.pressBound && d.swPrev && !r.swNow)) = true) (ha : d.pressActive = false) :
    d.pressChannel r = { d with
      swPend := false, pressValid := true, pressTokenOut := r.pressToken, pressActive := true, swPrev := r.swNow } := by
  obtain ⟨-, -, h⟩ := (d.pressChannel_cases r).resolve_right fun hheld => hheld.1 ⟨hp, ha⟩
  exact h

/-- Settles O45: the button channel runs on the registers of `s` with the rule's `active'`. -/
theorem pressChannelCycle : Obligations.PressChannelCycle := by
  rintro s t _ _ _ hr h rfl rfl rfl
  obtain ⟨d, hcmd, hdec⟩ := step_decoder h hr
  have hactive : d.pressActive = (s.dec.pressActive && !pretNow s) := by
    rw [pretNow_eq]
    exact hcmd.pressActive_eq
  obtain ⟨hpend, hprev, hvalid⟩ :
      d.swPend = s.dec.swPend ∧ d.swPrev = s.dec.swPrev ∧ d.pressValid = false := hcmd.pressSource
  obtain ⟨tPend, tPrev, tActive, tValid, tToken⟩ := s.decoderEdge_press d _ rfl
  rw [hdec, tPend, tPrev, tActive, tValid, tToken, ← hpend, ← hprev, ← hactive]
  refine ⟨?_, fun hp ha => ?_, fun hn => ?_⟩
  · rcases d.pressChannel_cases s.sampled with ⟨-, -, hch⟩ | ⟨-, hch⟩ <;> rw [hch] <;> rfl
  · rw [Dec.pressChannel_served hp ha]
    exact ⟨rfl, rfl, rfl, rfl⟩
  · rw [Dec.pressChannel_held hn]
    exact ⟨rfl, rfl, hvalid⟩

/-- Settles O49: while `active'` is 1 each channel takes its branch that is not served. -/
theorem activeSourceNeverNests : Obligations.ActiveSourceNeverNests := by
  intro s t hr h
  refine ⟨fun ha hret => ?_, fun ha hret => ?_⟩
  · have hactive : (s.dec.turnActive && !tretNow s) = true := by rw [ha, hret]; rfl
    obtain ⟨-, -, hheld⟩ := turnChannelCycle s t _ _ _ _ hr h rfl rfl rfl rfl
    obtain ⟨-, tActive, tValid, tLast, tClicks⟩ := hheld fun ⟨_, hidle⟩ => by simp [hactive] at hidle
    exact ⟨tValid, tActive.trans hactive, tLast, tClicks⟩
  · have hactive : (s.dec.pressActive && !pretNow s) = true := by rw [ha, hret]; rfl
    obtain ⟨-, -, hheld⟩ := pressChannelCycle s t _ _ _ hr h rfl rfl rfl
    obtain ⟨-, tActive, tValid⟩ := hheld fun ⟨_, hidle⟩ => by simp [hactive] at hidle
    exact ⟨tValid, tActive.trans hactive⟩

/-! ## The events behind the channels (R115 to R123) -/

section Refinement

variable {threshold : Nat} {r : Sampled} {d : Dec}

theorem Dec.turnChannel_refines (hb : r.turnBound = d.turnBound) (ht : r.turnToken = d.turnToken) :
    d.turnChannel threshold r = { (if d.aPend && !d.turnActive then d.serveA threshold r.bNow
      else if d.aPrev && !r.aNow then d.fallA threshold r.bNow else d) with aPrev := r.aNow } := by
  by_cases hserve : d.aPend = true ∧ d.turnActive = false
  · obtain ⟨hp, ha⟩ := hserve
    rw [Dec.turnChannel_served (by simp [hp]) ha, if_pos (by simp [hp, ha]), Dec.serveA_enabled hp ha, ht]
  rw [if_neg (by simpa using hserve)]
  by_cases hfall : (d.aPrev && !r.aNow) = true
  · rw [if_pos hfall]
    cases hbound : d.turnBound with
    | false =>
      rw [Dec.fallA_unbound hbound, Dec.turnChannel_held (by simpa [hb, hbound] using hserve)]
      simp [hb, hbound]
    | true =>
      cases hactive : d.turnActive with
      | true =>
        rw [Dec.fallA_active hbound hactive, Dec.turnChannel_held (by simp [hactive])]
        simp [hb, hbound, hfall]
      | false =>
        have hnone : ({ d with aPend := false } : Dec) = d := by
          have hp : d.aPend = false := by simpa [hactive] using hserve
          rw [← hp]
        rw [Dec.fallA_processed hbound hactive,
          Dec.turnChannel_served (by simp [hb, hbound, hfall]) hactive, hnone, ht]
  · have hnone : (r.turnBound && d.aPrev && !r.aNow) = false := by
      rw [Bool.and_assoc, Bool.eq_false_iff.mpr hfall, Bool.and_false]
    rw [if_neg hfall, Dec.turnChannel_held (by simpa [hnone] using hserve), hnone, Bool.or_false]

theorem Dec.pressChannel_refines (hb : r.pressBound = d.pressBound) (ht : r.pressToken = d.pressToken) :
    d.pressChannel r = { (if d.swPend && !d.pressActive then d.serveSW
      else if d.swPrev && !r.swNow then d.fallSW else d) with swPrev := r.swNow } := by
  by_cases hserve : d.swPend = true ∧ d.pressActive = false
  · obtain ⟨hp, ha⟩ := hserve
    rw [Dec.pressChannel_served (by simp [hp]) ha, if_pos (by simp [hp, ha]), Dec.serveSW_enabled hp ha, ht]
    rfl
  rw [if_neg (by simpa using hserve)]
  by_cases hfall : (d.swPrev && !r.swNow) = true
  · rw [if_pos hfall]
    cases hbound : d.pressBound with
    | false =>
      rw [Dec.fallSW_unbound hbound, Dec.pressChannel_held (by simpa [hb, hbound] using hserve)]
      simp [hb, hbound]
    | true =>
      cases hactive : d.pressActive with
      | true =>
        rw [Dec.fallSW_active hbound hactive, Dec.pressChannel_held (by simp [hactive])]
        simp [hb, hbound, hfall]
      | false =>
        have hp : d.swPend = false := by simpa [hactive] using hserve
        rw [Dec.fallSW_processed hbound hactive,
          Dec.pressChannel_served (by simp [hb, hbound, hfall]) hactive, ht, ← hp]
        rfl
  · have hnone : (r.pressBound && d.swPrev && !r.swNow) = false := by
      rw [Bool.and_assoc, Bool.eq_false_iff.mpr hfall, Bool.and_false]
    rw [if_neg hfall, Dec.pressChannel_held (by simpa [hnone] using hserve), hnone, Bool.or_false]

end Refinement

/-- Settles O46: a pending edge that may be served is `ServeA` or `ServeSW`, otherwise a falling edge is `FallA` or
`FallSW`. -/
theorem channelsRefineEvents : Obligations.ChannelsRefineEvents :=
  fun _ _ _ => ⟨Dec.turnChannel_refines, Dec.pressChannel_refines⟩

/-! ## The order of the channels (R66, R162) -/

/-- `d` with the registers of the turn source that `e` holds. -/
def Dec.withTurn (d e : Dec) : Dec :=
  { d with
    aPend := e.aPend, aPrev := e.aPrev, lastLevel := e.lastLevel, pendingClicks := e.pendingClicks
    turnActive := e.turnActive, turnValid := e.turnValid, turnDir := e.turnDir, turnTokenOut := e.turnTokenOut }

/-- `d` with the registers of the button that `e` holds. -/
def Dec.withPress (d e : Dec) : Dec :=
  { d with
    swPend := e.swPend, swPrev := e.swPrev, pressActive := e.pressActive, pressValid := e.pressValid
    pressTokenOut := e.pressTokenOut }

/-- A step of the turn source: it writes the source's registers and takes nothing from those of the button. -/
structure TurnOnly (f : Dec → Dec) : Prop where
  writes : ∀ d, f d = d.withTurn (f d)
  ignores : ∀ d e, f (d.withPress e) = (f d).withPress e

/-- A step of the button: it writes the button's registers and takes nothing from those of the turn source. -/
structure PressOnly (g : Dec → Dec) : Prop where
  writes : ∀ d, g d = d.withPress (g d)
  ignores : ∀ d e, g (d.withTurn e) = (g d).withTurn e

/-- A step of one source and a step of the other commute. -/
theorem TurnOnly.comm {f g : Dec → Dec} (hf : TurnOnly f) (hg : PressOnly g) (d : Dec) : g (f d) = f (g d) := by
  calc g (f d) = g (d.withTurn (f d)) := by rw [← hf.writes]
    _ = (g d).withTurn (f d) := hg.ignores d (f d)
    _ = (d.withPress (g d)).withTurn (f d) := by rw [← hg.writes]
    _ = (d.withTurn (f d)).withPress (g d) := rfl
    _ = (f d).withPress (g d) := by rw [← hf.writes]
    _ = f (d.withPress (g d)) := (hf.ignores d (g d)).symm
    _ = f (g d) := by rw [← hg.writes]

theorem TurnOnly.turnStep (threshold : Nat) (token : Token) (level : Bool) :
    TurnOnly (Dec.turnStep threshold token level) where
  writes d := by
    rcases d.turnStep_cases threshold token level with ⟨-, -, h⟩ | ⟨-, -, h⟩ | ⟨-, h⟩ <;> rw [h] <;> rfl
  ignores d e := by
    obtain ⟨hemit, hcount, hreset⟩ := turnStepMeaning threshold token level (d.withPress e)
    rcases d.turnStep_cases threshold token level with ⟨hl, hc, h⟩ | ⟨hl, hc, h⟩ | ⟨hl, h⟩ <;> rw [h]
    · exact hemit hl hc
    · exact hcount hl (Nat.not_lt.mpr hc)
    · exact hreset hl

theorem TurnOnly.turnChannel (threshold : Nat) (r : Sampled) : TurnOnly (Dec.turnChannel threshold r) where
  writes d := by
    rcases d.turnChannel_cases threshold r with ⟨-, -, h⟩ | ⟨-, h⟩ <;> rw [h]
    · rw [(TurnOnly.turnStep threshold r.turnToken r.bNow).writes]
      rfl
    · rfl
  ignores d e := by
    rcases d.turnChannel_cases threshold r with ⟨hp, ha, h⟩ | ⟨hn, h⟩ <;> rw [h]
    · have hserved : (d.withPress e).turnChannel threshold r
          = { (({ d with aPend := false } : Dec).withPress e).turnStep threshold r.turnToken r.bNow with
              aPrev := r.aNow } := Dec.turnChannel_served hp ha
      rw [hserved, (TurnOnly.turnStep threshold r.turnToken r.bNow).ignores]
      rfl
    · exact Dec.turnChannel_held hn

theorem TurnOnly.fallA (threshold : Nat) (level : Bool) : TurnOnly (Dec.fallA threshold level) where
  writes d := by
    unfold Dec.fallA
    split_ifs
    · rfl
    · rfl
    · exact (TurnOnly.turnStep threshold d.turnToken level).writes d
  ignores d e := by
    cases hb : d.turnBound with
    | false => rw [Dec.fallA_unbound hb]; exact Dec.fallA_unbound hb
    | true =>
      cases ha : d.turnActive with
      | true => rw [Dec.fallA_active hb ha]; exact Dec.fallA_active hb ha
      | false =>
        rw [Dec.fallA_processed hb ha, ← (TurnOnly.turnStep threshold d.turnToken level).ignores]
        exact Dec.fallA_processed hb ha

theorem Dec.serveA_disabled {threshold : Nat} {level : Bool} {d : Dec}
    (h : ¬ (d.aPend = true ∧ d.turnActive = false)) : d.serveA threshold level = d := by
  rw [Dec.serveA, if_neg (by simpa using h)]

theorem TurnOnly.serveA (threshold : Nat) (level : Bool) : TurnOnly (Dec.serveA threshold level) where
  writes d := by
    unfold Dec.serveA
    split_ifs
    · exact (TurnOnly.turnStep threshold d.turnToken level).writes { d with aPend := false }
    · rfl
  ignores d e := by
    by_cases h : d.aPend = true ∧ d.turnActive = false
    · obtain ⟨hp, ha⟩ := h
      rw [Dec.serveA_enabled hp ha, ← (TurnOnly.turnStep threshold d.turnToken level).ignores]
      exact Dec.serveA_enabled hp ha
    · rw [Dec.serveA_disabled h]
      exact Dec.serveA_disabled h

theorem PressOnly.pressChannel (r : Sampled) : PressOnly (Dec.pressChannel r) where
  writes d := by
    rcases d.pressChannel_cases r with ⟨-, -, h⟩ | ⟨-, h⟩ <;> rw [h] <;> rfl
  ignores d e := by
    rcases d.pressChannel_cases r with ⟨hp, ha, h⟩ | ⟨hn, h⟩ <;> rw [h]
    · exact Dec.pressChannel_served hp ha
    · exact Dec.pressChannel_held hn

theorem PressOnly.fallSW : PressOnly Dec.fallSW where
  writes d := by
    unfold Dec.fallSW
    split_ifs <;> rfl
  ignores d e := by
    cases hb : d.pressBound with
    | false => rw [Dec.fallSW_unbound hb]; exact Dec.fallSW_unbound hb
    | true =>
      cases ha : d.pressActive with
      | true => rw [Dec.fallSW_active hb ha]; exact Dec.fallSW_active hb ha
      | false => rw [Dec.fallSW_processed hb ha]; exact Dec.fallSW_processed hb ha

theorem Dec.serveSW_disabled {d : Dec} (h : ¬ (d.swPend = true ∧ d.pressActive = false)) : d.serveSW = d := by
  rw [Dec.serveSW, if_neg (by simpa using h)]

theorem PressOnly.serveSW : PressOnly Dec.serveSW where
  writes d := by
    unfold Dec.serveSW
    split_ifs <;> rfl
  ignores d e := by
    by_cases h : d.swPend = true ∧ d.pressActive = false
    · obtain ⟨hp, ha⟩ := h
      rw [Dec.serveSW_enabled hp ha]
      exact Dec.serveSW_enabled hp ha
    · rw [Dec.serveSW_disabled h]
      exact Dec.serveSW_disabled h

/-- Settles O47: the two steps of each clause belong to different sources. -/
theorem channelOrderIsImmaterial : Obligations.ChannelOrderIsImmaterial := fun threshold level r d =>
  ⟨(TurnOnly.turnChannel threshold r).comm (PressOnly.pressChannel r) d,
    (TurnOnly.fallA threshold level).comm PressOnly.fallSW d,
    (TurnOnly.serveA threshold level).comm PressOnly.serveSW d⟩

/-! ## Runs of turn steps (R125) -/

section TurnSteps

variable {threshold : Nat} {token : Token} {level : Bool} {d : Dec}

/-- A turn step emits when the level is the recorded one and the counter is full (R116, R117). -/
theorem turnEmits_iff :
    turnEmits threshold token level d ↔ level = d.lastLevel ∧ d.pendingClicks + 1 > threshold := by
  unfold turnEmits
  rcases Dec.turnStep_cases threshold token level { d with turnActive := false } with
    ⟨hl, hc, h⟩ | ⟨hl, hc, h⟩ | ⟨hl, h⟩
  · exact iff_of_true (by rw [h]) ⟨hl, hc⟩
  · exact iff_of_false (by rw [h]; exact Bool.false_ne_true) fun ⟨_, hc'⟩ => absurd hc (Nat.not_le.mpr hc')
  · exact iff_of_false (by rw [h]; exact Bool.false_ne_true) fun ⟨hl', _⟩ => hl hl'

theorem turnSteps_append_singleton (threshold : Nat) (token : Token) (levels : List Bool) (level : Bool) (d : Dec) :
    turnSteps threshold token (levels ++ [level]) d
      = ((turnSteps threshold token levels d).turnStep threshold token level).returnTurn := by
  simp [turnSteps]

/-- `levels`, processed from `d`, end in as many edges at the level `e` records as the counter of `e` says, and that
level was recorded before the first of them. -/
def EndsInRun (threshold : Nat) (token : Token) (levels : List Bool) (d e : Dec) : Prop :=
  ∃ before, levels = before ++ List.replicate e.pendingClicks e.lastLevel
    ∧ (turnSteps threshold token before d).lastLevel = e.lastLevel

/-- With the counter at 0 the run is empty. -/
theorem EndsInRun.of_zero {levels : List Bool} {e : Dec} (he : e = turnSteps threshold token levels d)
    (h : e.pendingClicks = 0) : EndsInRun threshold token levels d e :=
  ⟨levels, by rw [h, List.replicate_zero, List.append_nil], by rw [he]⟩

/-- The counter counts the edges at the end that repeat the recorded level. -/
theorem turnSteps_endsInRun (threshold : Nat) (token : Token) (levels : List Bool) (hd : d.pendingClicks = 0) :
    ∀ e, e = turnSteps threshold token levels d →
      e.pendingClicks ≤ threshold ∧ EndsInRun threshold token levels d e := by
  induction levels using List.reverseRecOn with
  | nil =>
    intro e he
    have hzero : e.pendingClicks = 0 := by rw [he]; exact hd
    exact ⟨by omega, .of_zero he hzero⟩
  | append_singleton levels level ih =>
    intro e he
    obtain ⟨-, before, hlevels, hlast⟩ := ih _ rfl
    have hstep := he
    rw [turnSteps_append_singleton] at hstep
    have hstart (hzero : e.pendingClicks = 0) :
        e.pendingClicks ≤ threshold ∧ EndsInRun threshold token (levels ++ [level]) d e :=
      ⟨by omega, .of_zero he hzero⟩
    rcases (turnSteps threshold token levels d).turnStep_cases threshold token level with
      ⟨-, -, h⟩ | ⟨hl, hc, h⟩ | ⟨-, h⟩ <;> rw [h] at hstep
    · exact hstart (by rw [hstep]; rfl)
    · rw [hstep]
      refine ⟨hc, before, ?_, hlast.trans hl.symm⟩
      show levels ++ [level] = before ++ List.replicate (_ + 1) level
      rw [List.replicate_succ', ← List.append_assoc, hl, ← hlevels]
    · exact hstart (by rw [hstep]; rfl)

/-- Settles O50: an edge that emits finds the counter at `threshold`. -/
theorem emissionNeedsEqualRun : Obligations.EmissionNeedsEqualRun := by
  intro threshold token levels level d hd hemit
  obtain ⟨hl, hc⟩ := turnEmits_iff.mp hemit
  obtain ⟨hle, before, hlevels, hlast⟩ := turnSteps_endsInRun threshold token levels hd _ rfl
  have hfull : (turnSteps threshold token levels d).pendingClicks = threshold := by omega
  rw [hfull, ← hl] at hlevels
  exact ⟨before, hlevels, hlast.trans hl.symm⟩

/-- Edges held at the recorded level are counted, up to the threshold. -/
theorem turnSteps_held (token : Token) (hd : d.pendingClicks = 0) {n : Nat} (hn : n ≤ threshold) :
    ∀ e, e = turnSteps threshold token (List.replicate n d.lastLevel) d →
      e.pendingClicks = n ∧ e.lastLevel = d.lastLevel := by
  induction n with
  | zero => intro e he; rw [he]; exact ⟨hd, rfl⟩
  | succ n ih =>
    rintro e rfl
    obtain ⟨hclicks, hlast⟩ := ih (Nat.le_of_succ_le hn) _ rfl
    rw [List.replicate_succ', turnSteps_append_singleton]
    obtain ⟨-, hcount, -⟩ := turnStepMeaning threshold token d.lastLevel
      (turnSteps threshold token (List.replicate n d.lastLevel) d)
    rw [hcount hlast.symm (by omega)]
    exact ⟨congrArg (· + 1) hclicks, rfl⟩

end TurnSteps

/-- Settles O51: the counter is at `n` after `n` held edges, and full after `threshold`. -/
theorem heldLevelEmitsOnce : Obligations.HeldLevelEmitsOnce := by
  intro threshold token d hd
  refine ⟨fun n hn => ?_, ?_⟩
  · obtain ⟨hclicks, hlast⟩ := turnSteps_held token hd hn _ rfl
    refine ⟨hclicks, ?_⟩
    rw [turnEmits_iff, hclicks, hlast, and_iff_right rfl]
    omega
  · rintro e rfl
    obtain ⟨hclicks, hlast⟩ := turnSteps_held token hd le_rfl _ rfl
    obtain ⟨hemit, -, -⟩ := turnStepMeaning threshold token d.lastLevel
      (turnSteps threshold token (List.replicate threshold d.lastLevel) d)
    rw [hemit hlast.symm (by omega)]
    exact ⟨rfl, rfl, rfl, rfl⟩

/-! ## The synchronisers (R130) -/

/-- After the edges of `pins` the flops hold the levels seen last, the latest first. -/
theorem foldl_syncShift (pins flops : List Bool) :
    pins.foldl (fun f p => syncShift p f) flops = (pins.reverse ++ flops).take flops.length := by
  induction pins generalizing flops with
  | nil => simp
  | cons p pins ih =>
    rw [List.foldl_cons, ih, syncShift_length, syncShift, List.dropLast_eq_take, List.reverse_cons, List.append_assoc,
      List.singleton_append, List.length_cons, Nat.add_sub_cancel, List.take_append, List.take_append,
      List.take_take, Nat.min_eq_left (Nat.sub_le _ _)]

/-- Settles O52: each synchroniser shifts by its own pin, and by `foldl_syncShift` its last flop holds the level
that came in as many edges ago as there are flops. -/
theorem synchroniserOnlyDelays : Obligations.SynchroniserOnlyDelays := by
  refine ⟨fun s t hr h => ?_, fun flops pins pin hlen => ?_⟩
  · obtain ⟨d, hcmd, hdec⟩ := step_decoder h hr
    obtain ⟨-, -, -, -, tA, tB, tSw⟩ := s.decoderEdge_keeps d _ hdec
    obtain ⟨dA, dB, dSw⟩ := hcmd.sync
    exact ⟨by rw [tA, dA]; rfl, by rw [tB, dB]; rfl, by rw [tSw, dSw]; rfl⟩
  · rw [foldl_syncShift, List.take_append_of_le_length (by simpa using hlen), syncOut]
    cases hn : flops.length with
    | zero => simp
    | succ n =>
      have hlt : n < pins.length := by omega
      have hk : pins.length - (n + 1) < pins.length := by omega
      rw [List.getElem?_append_left hk, List.getLastD_eq_getLast?, List.getLast?_take, if_neg (Nat.succ_ne_zero n),
        Nat.add_sub_cancel, List.getElem?_reverse hlt, show pins.length - 1 - n = pins.length - (n + 1) by omega,
        List.getElem?_eq_getElem hk]
      rfl

end Sys2Proof.Machine
end

section
/-! PROOFS. The clock edge: reset, the acceptance of a word, and that every edge keeps the invariant of driver and
decoder. -/

namespace Sys2Proof.Machine

/-! ## Reset (R176) -/

theorem step_reset {s : State} (hwf : s.cfg.wf = true) (hr : s.inp.rst = true) : step s = .next s.resetEdge := by
  rw [step, if_pos hwf, clockEdge, if_pos hr]

theorem step_reset_inv {s t : State} (h : step s = .next t) (hr : s.inp.rst = true) : t = s.resetEdge := by
  obtain ⟨hwf, -⟩ := step_cases h
  exact Host.Outcome.next.inj (h.symm.trans (step_reset hwf hr))

/-- Settles O29: the edge is `State.resetEdge`. -/
theorem resetEdgeTakesResetValues : Obligations.ResetEdgeTakesResetValues :=
  fun s hwf hr => ⟨_, step_reset hwf hr, rfl, rfl, rfl, by rw [State.accepts, hr]; rfl⟩

/-- Settles O30: every word is accepted, so only the configuration can stop the step. -/
theorem stepNeverStops : Obligations.StepNeverStops :=
  fun s => ⟨step_next s, fun hwf => by rw [step, if_neg (by simp [hwf])]⟩

/-! ## Acceptance (R100) -/

/-- An edge that accepts a word runs it on the block whose pulses have fallen. -/
theorem step_accept {s t : State} (hwf : s.cfg.wf = true) (ha : s.accepts = true)
    (hword : acceptWord s.inp.cmd s.endPulses = .next t) :
    step s = .next (s.finishEdge (t.withDrv (t.drv.respondAtOnce s.inp.hold))) := by
  have hr : ¬ s.inp.rst = true := fun hr => by simp [State.accepts, hr] at ha
  rw [step, if_pos hwf, clockEdge, if_neg hr, if_pos ha, State.acceptEdge, hword]

/-- Settles O31: under the premises the word is accepted, and it runs the command it decodes to. -/
theorem stepRunsDecodedCommand : Obligations.StepRunsDecodedCommand := by
  intro s i hwf hr hv hb hdec
  obtain ⟨drv, dec, hexec, -, -⟩ := exec_accepted i s.endPulses
  have ha : s.accepts = true := by simp [State.accepts, State.cmdReady, hr, hv, hb]
  have hword : acceptWord s.inp.cmd s.endPulses = .next { s.endPulses with drv := drv, dec := dec } := by
    rw [acceptWord, hdec]; exact hexec
  exact ⟨_, hexec, step_accept hwf ha hword⟩

/-- A 32-bit table word is the word itself. -/
theorem tableWord_toNat (w : Word) : tableWord 32 w.toNat = w := by
  rw [tableWord, Nat.mod_eq_of_lt w.isLt, BitVec.ofNat_toNat, BitVec.setWidth_eq]

/-- Settles O32: the word on the port decodes to the command, and the block is idle. -/
theorem presentedWordIsRun : Obligations.PresentedWordIsRun := by
  rintro s i hwf hi _ rfl
  refine stepRunsDecodedCommand (s.withFetchWord 32 (encode i).toNat) i hwf rfl rfl rfl ?_
  show decode (tableWord 32 (encode i).toNat) = .ok i
  rw [tableWord_toNat, decodeOfEncodeIsIdentity i hi]

/-! ## The invariant after reset -/

theorem State.resetIn_inv (cfg : Config) : (State.resetIn cfg).Inv := by
  refine ⟨⟨rfl, ?_, fun _ => ⟨rfl, rfl, rfl, rfl⟩, ?_, ⟨rfl, rfl⟩, ⟨rfl, rfl, rfl⟩, Nat.zero_le _, fun _ => rfl⟩,
    ⟨Nat.zero_le _, Nat.two_pow_pos _⟩, ⟨?_, ?_, ?_, ?_⟩, ⟨?_, ?_⟩,
    List.length_replicate, List.length_replicate, List.length_replicate⟩
  all_goals exact fun h => absurd h Bool.false_ne_true

/-- Settles O33: the reset state meets the invariant whatever the configuration. -/
theorem resetMeetsInvariant : Obligations.ResetMeetsInvariant :=
  ⟨State.resetIn_inv Config.ref, fun cfg _ => State.resetIn_inv cfg⟩

/-! ## The driver's invariant -/

/-- What R10 says of the two parameters that bound a counter. -/
theorem Config.wf_counters {cfg : Config} (h : cfg.wf = true) :
    1 ≤ cfg.settleTicks ∧ cfg.threshold + 1 < 2 ^ cfg.cntW := by
  simp only [Config.wf, Bool.and_eq_true, decide_eq_true_eq] at h
  tauto

theorem wireLevel_append_singleton (l : Line) (wire : List (Line × Bool)) (e : Line × Bool) (b : Bool) :
    wireLevel l (wire ++ [e]) b = if e.1 = l then e.2 else wireLevel l wire b := by
  induction wire generalizing b with
  | nil => rfl
  | cons e' wire ih => exact ih _

section DrvInv

variable {cfg : Config} {d d' : Drv}

theorem Drv.Inv.endPulse (h : d.Inv cfg) (k : Nat) : (d.endPulse k).Inv cfg := by
  obtain ⟨htext, hcount, hidle, -, hlevels, hwire, hsettle⟩ := h
  refine ⟨htext, hcount, fun hb => ?_, (absurd · Bool.false_ne_true), hlevels, hwire, hsettle⟩
  obtain ⟨hseq, hs, hm, -⟩ := hidle hb
  exact ⟨hseq, hs, hm, rfl⟩

/-- Acceptance on an idle block keeps the invariant: the line writes placed lead from idle levels to idle levels. -/
theorem Drv.Inv.accepted (h : d.Inv cfg) (hb : d.busy = false) (hacc : d.Accepted d') : d'.Inv cfg := by
  obtain ⟨htext, hcount, hidle, -, ⟨hstb, hclk⟩, ⟨wstb, wclk, wdio⟩, -⟩ := h
  obtain ⟨hseq, hs, hm, hv⟩ := hidle hb
  obtain ⟨ws, hws, bstb, bclk⟩ := hacc.seq
  rw [hseq] at hstb hclk
  rw [hseq, List.nil_append] at hws
  have hstb : d.stb = true := hstb
  have hclk : d.clk = true := hclk
  refine ⟨hacc.text htext, hacc.count hcount, fun hb' => ?_, fun hv' => ?_, ?_, ?_, ?_⟩
  · rw [hacc.busy] at hb'; cases hb'
  · rw [hacc.rspValid, hv] at hv'; cases hv'
  · rw [Drv.LevelsOk, hws, hacc.stb, hacc.clk, hstb, hclk]
    exact ⟨bstb, bclk⟩
  · rw [Drv.WireOk, hacc.stb, hacc.clk, hacc.dio, hacc.wire]
    exact ⟨wstb, wclk, wdio⟩
  · rw [Drv.SettleOk, hacc.settle, hacc.settling, hs, hm]
    exact ⟨Nat.zero_le _, fun _ => rfl⟩

/-- The pulse of the response keeps the invariant once everything is done. -/
theorem Drv.Inv.pulse (h : d.Inv cfg) (hb : d.busy = true) (hseq : d.seq = []) (hm : d.settling = []) :
    d.pulse.Inv cfg := by
  obtain ⟨htext, hcount, -, -, hlevels, hwire, -⟩ := h
  refine ⟨htext, hcount, fun hb' => ?_, fun _ => ⟨hb, hseq, rfl, hm, rfl⟩, hlevels, hwire, Nat.zero_le _, fun _ => hm⟩
  rw [Drv.pulse_busy, hb] at hb'
  cases hb'

theorem Drv.Inv.respondAtOnce (h : d.Inv cfg) (hb : d.busy = true) (hm : d.settling = []) (hold : Bool) :
    (d.respondAtOnce hold).Inv cfg := by
  unfold Drv.respondAtOnce
  split
  · next hq =>
    simp only [Bool.and_eq_true, decide_eq_true_eq] at hq
    obtain ⟨hseq, -⟩ := hq
    exact h.pulse hb hseq hm
  · exact h

/-- The exchange that ends with a settle delay leaves only `shadow` changed, which the invariant does not speak of. -/
theorem Drv.Inv.finishExchange (h : d.Inv cfg) : d.finishExchange.Inv cfg := by
  obtain ⟨htext, hcount, hidle, hresp, hlevels, hwire, hsettle, -⟩ := h
  refine ⟨htext, hcount, fun hb => ?_, fun hv => ?_, hlevels, hwire, hsettle, fun _ => rfl⟩
  · obtain ⟨hseq, hs, -, hv⟩ := hidle hb
    exact ⟨hseq, hs, rfl, hv⟩
  · obtain ⟨hb, hseq, hs, -, hst⟩ := hresp hv
    exact ⟨hb, hseq, hs, rfl, hst⟩

/-- A line write performed moves one entry from the pending ones to `wire`, with its level. -/
theorem Drv.Inv.perform (h : d.Inv cfg) (hb : d.busy = true) (hv : d.rspValid = false) (hticks : 1 ≤ cfg.settleTicks)
    {w : SeqWrite} {rest : List SeqWrite} (hseq : d.seq = w :: rest) :
    ({ ({ d with seq := rest } : Drv).perform w with settle := cfg.settleTicks } : Drv).Inv cfg := by
  obtain ⟨htext, hcount, -, -, ⟨hstb, hclk⟩, ⟨wstb, wclk, wdio⟩, -⟩ := h
  rw [hseq, levelAfter] at hstb hclk
  refine ⟨?_, ?_, fun hb' => ?_, fun hv' => ?_, ?_, ?_, le_rfl, fun hs => ?_⟩
  · simpa using htext
  · simpa using hcount
  · rw [Drv.perform_busy, hb] at hb'; cases hb'
  · rw [Drv.perform_rspValid, hv] at hv'; cases hv'
  · simpa using ⟨hstb, hclk⟩
  · simp only [Drv.WireOk, Drv.perform_wire, Drv.perform_stb, Drv.perform_clk, Drv.perform_dio,
      wireLevel_append_singleton, SeqWrite.entry, ← wstb, ← wclk, ← wdio, and_self]
  · have hs : cfg.settleTicks = 0 := hs
    omega

/-- The sequencer keeps the invariant; the cycle of the response is one in which nothing is left to do. -/
theorem Drv.Inv.sequencer (h : d.Inv cfg) (hticks : 1 ≤ cfg.settleTicks) (hv : d.rspValid = false)
    {hold responding : Bool} (hdone : responding = true → d.seq = [] ∧ d.settle = 0 ∧ d.settling = []) :
    (d.sequencer cfg hold responding).Inv cfg := by
  rcases Drv.sequencer_cases cfg hold responding d with
    ⟨hd, -⟩ | ⟨-, hr, hd⟩ | ⟨hb, -, -, hs, hd⟩ | ⟨hb, -, -, -, hseq, hd⟩ | ⟨hb, -, -, -, w, rest, hseq, hd⟩ <;> rw [hd]
  · exact h
  · obtain ⟨hseq, hs, hm⟩ := hdone hr
    obtain ⟨htext, hcount, -, -, hlevels, hwire, hsettle⟩ := h
    exact ⟨htext, hcount, fun _ => ⟨hseq, hs, hm, hv⟩, fun hv' => absurd hv' (ne_true_of_eq_false hv),
      hlevels, hwire, hsettle⟩
  · obtain ⟨htext, hcount, -, -, hlevels, hwire, hle, -⟩ := h
    have hle' : d.settle - 1 ≤ cfg.settleTicks := by omega
    have hrun : ¬ d.settle - 1 = 0 := by omega
    exact ⟨htext, hcount, fun hb' => absurd hb (ne_true_of_eq_false hb'),
      fun hv' => absurd hv' (ne_true_of_eq_false hv), hlevels, hwire, hle', fun hz => absurd hz hrun⟩
  · exact h.finishExchange.pulse hb hseq rfl
  · exact h.perform hb hv hticks hseq

end DrvInv

theorem step_drv_inv {s t : State} (hinv : s.drv.Inv s.cfg) (h : step s = .next t) : t.drv.Inv s.cfg := by
  obtain ⟨hwf, ⟨-, rfl⟩ | ⟨-, ha, drv, dec, -, hacc, -, rfl⟩ | ⟨-, -, rfl⟩⟩ := step_cases h
  · exact (State.resetIn_inv s.cfg).1
  · have hb : s.drv.busy = false := by
      simp only [State.accepts, State.cmdReady, Bool.and_eq_true, Bool.not_eq_true'] at ha
      exact ha.2
    have hm : s.drv.settling = [] := by
      obtain ⟨-, -, hidle, -⟩ := hinv
      obtain ⟨-, -, hm, -⟩ := hidle hb
      exact hm
    exact ((hinv.endPulse s.freeCount).accepted hb hacc).respondAtOnce hacc.busy (hacc.settling.trans hm) s.inp.hold
  · obtain ⟨hticks, -⟩ := Config.wf_counters hwf
    refine (hinv.endPulse s.freeCount).sequencer hticks rfl fun hr => ?_
    obtain ⟨-, -, -, hresp, -⟩ := hinv
    obtain ⟨-, hseq, hs, hm, -⟩ := hresp hr
    exact ⟨hseq, hs, hm⟩

/-! ## The decoder's invariant -/

/-- A bound source stays bound. -/
theorem Dec.Commanded.bound {d d' : Dec} {i : Option Instr} (h : d.Commanded i d') :
    (d.turnBound = true → d'.turnBound = true) ∧ (d.pressBound = true → d'.pressBound = true) := by
  cases h with
  | none | returnTurn | returnPress => exact ⟨id, id⟩
  | bindTurn => exact ⟨fun _ => rfl, id⟩
  | bindPress => exact ⟨id, fun _ => rfl⟩

section DecInv

variable {s t : State}

theorem step_bound (h : step s = .next t) (hr : s.inp.rst = false) :
    (s.dec.turnBound = true → t.dec.turnBound = true) ∧ (s.dec.pressBound = true → t.dec.pressBound = true) := by
  obtain ⟨d, hcmd, hdec⟩ := step_decoder h hr
  obtain ⟨tTurn, -, tPress, -⟩ := s.decoderEdge_keeps d _ hdec
  rw [tTurn, tPress]
  exact hcmd.bound

theorem step_syncOk (hsync : s.dec.SyncOk s.cfg) (h : step s = .next t) (hr : s.inp.rst = false) :
    t.dec.SyncOk s.cfg := by
  obtain ⟨hshift, -⟩ := synchroniserOnlyDelays
  obtain ⟨tA, tB, tSw⟩ := hshift s t hr h
  simpa only [Dec.SyncOk, tA, tB, tSw, syncShift_length] using hsync

/-- The turn source at an edge, by the two branches of its channel (R129, R131, R164). -/
theorem step_turn_inv (hcount : s.dec.pendingClicks ≤ s.cfg.threshold)
    (hpend : s.dec.aPend = true → s.dec.turnBound = true) (hactive : s.dec.turnActive = true → s.dec.turnBound = true)
    (h : step s = .next t) (hr : s.inp.rst = false) :
    t.dec.pendingClicks ≤ s.cfg.threshold ∧ (t.dec.aPend = true → s.dec.turnBound = true)
    ∧ (t.dec.turnActive = true → s.dec.turnBound = true)
    ∧ (t.dec.turnValid = true →
        t.dec.turnActive = true ∧ t.dec.pendingClicks = 0 ∧ t.dec.turnDir = t.dec.lastLevel) := by
  obtain ⟨-, hserved, hheld⟩ := turnChannelCycle s t _ _ _ _ hr h rfl rfl rfl rfl
  generalize hfall : (s.dec.turnBound && s.dec.aPrev && !syncOut s.inp.encA s.dec.aSync) = aFall at hserved hheld
  have hsource : (s.dec.aPend || aFall) = true → s.dec.turnBound = true := by
    rw [Bool.or_eq_true, ← hfall, Bool.and_eq_true, Bool.and_eq_true]
    exact fun hp => hp.elim hpend fun ⟨⟨hb, _⟩, _⟩ => hb
  by_cases hserve : (s.dec.aPend || aFall) = true ∧ (s.dec.turnActive && !tretNow s) = false
  · obtain ⟨hp, ha⟩ := hserve
    obtain ⟨-, tLast, hemit, hcounted, hreset⟩ := hserved hp ha
    have hb := hsource hp
    by_cases hl : syncOut s.inp.encB s.dec.bSync = s.dec.lastLevel
    · by_cases hc : s.dec.pendingClicks + 1 > s.cfg.threshold
      · obtain ⟨tClicks, tActive, -, tDir, -⟩ := hemit hl hc
        exact ⟨by omega, fun _ => hb, fun _ => hb, fun _ => ⟨tActive, tClicks, tDir.trans tLast.symm⟩⟩
      · obtain ⟨tClicks, -, tValid⟩ := hcounted hl hc
        exact ⟨by omega, fun _ => hb, fun _ => hb, fun hv => absurd hv (ne_true_of_eq_false tValid)⟩
    · obtain ⟨tClicks, -, tValid⟩ := hreset hl
      exact ⟨by omega, fun _ => hb, fun _ => hb, fun hv => absurd hv (ne_true_of_eq_false tValid)⟩
  · obtain ⟨tPend, tActive, tValid, -, tClicks⟩ := hheld hserve
    refine ⟨tClicks ▸ hcount, fun hp => hsource (tPend ▸ hp), fun ha => hactive ?_,
      fun hv => absurd hv (ne_true_of_eq_false tValid)⟩
    rw [tActive, Bool.and_eq_true] at ha
    exact ha.1

/-- The button at an edge, by the two branches of its channel (R129, R132, R164). -/
theorem step_press_inv (hpend : s.dec.swPend = true → s.dec.pressBound = true)
    (hactive : s.dec.pressActive = true → s.dec.pressBound = true) (h : step s = .next t) (hr : s.inp.rst = false) :
    (t.dec.swPend = true → s.dec.pressBound = true) ∧ (t.dec.pressActive = true → s.dec.pressBound = true)
    ∧ (t.dec.pressValid = true → t.dec.pressActive = true) := by
  obtain ⟨-, hserved, hheld⟩ := pressChannelCycle s t _ _ _ hr h rfl rfl rfl
  generalize hfall : (s.dec.pressBound && s.dec.swPrev && !syncOut s.inp.encSw s.dec.swSync) = swFall at hserved hheld
  have hsource : (s.dec.swPend || swFall) = true → s.dec.pressBound = true := by
    rw [Bool.or_eq_true, ← hfall, Bool.and_eq_true, Bool.and_eq_true]
    exact fun hp => hp.elim hpend fun ⟨⟨hb, _⟩, _⟩ => hb
  by_cases hserve : (s.dec.swPend || swFall) = true ∧ (s.dec.pressActive && !pretNow s) = false
  · obtain ⟨hp, ha⟩ := hserve
    obtain ⟨-, tActive, -, -⟩ := hserved hp ha
    exact ⟨fun _ => hsource hp, fun _ => hsource hp, fun _ => tActive⟩
  · obtain ⟨tPend, tActive, tValid⟩ := hheld hserve
    refine ⟨fun hp => hsource (tPend ▸ hp), fun ha => hactive ?_,
      fun hv => absurd hv (ne_true_of_eq_false tValid)⟩
    rw [tActive, Bool.and_eq_true] at ha
    exact ha.1

theorem step_dec_inv (hinv : s.dec.Inv s.cfg) (h : step s = .next t) (hr : s.inp.rst = false) : t.dec.Inv s.cfg := by
  obtain ⟨hwf, -⟩ := step_cases h
  obtain ⟨-, hwidth⟩ := Config.wf_counters hwf
  obtain ⟨⟨hcount, -⟩, ⟨hpend, hswPend, hactive, hpressActive⟩, -, hsync⟩ := hinv
  obtain ⟨tCount, tPend, tActive, tPulse⟩ := step_turn_inv hcount hpend hactive h hr
  obtain ⟨tSwPend, tPressActive, tPressPulse⟩ := step_press_inv hswPend hpressActive h hr
  obtain ⟨hturn, hpress⟩ := step_bound h hr
  exact ⟨⟨tCount, by omega⟩,
    ⟨fun hp => hturn (tPend hp), fun hp => hpress (tSwPend hp), fun ha => hturn (tActive ha),
      fun ha => hpress (tPressActive ha)⟩,
    ⟨tPulse, tPressPulse⟩, step_syncOk hsync h hr⟩

end DecInv

/-- Settles O34: reset gives the reset state, and at any other edge driver and decoder keep their own parts. -/
theorem stepKeepsInvariant : Obligations.StepKeepsInvariant := by
  rintro s t ⟨hdrv, hdec⟩ h
  rw [State.Inv, step_cfg h]
  refine ⟨step_drv_inv hdrv h, ?_⟩
  cases hr : s.inp.rst with
  | false => exact step_dec_inv hdec h hr
  | true =>
    obtain rfl := step_reset_inv h hr
    exact (State.resetIn_inv s.cfg).2

end Sys2Proof.Machine
end

section
/-! PROOFS. The sequencer (R26, R65, R88, R89, R100): the order of the line writes, the settle delay, when `shadow`
takes the codes of an exchange, and the run to the response. -/

namespace Sys2Proof.Machine

/-! ## The order of the line writes (R65, R88) -/

/-- The accepting edge leaves what the sequencer owns alone. -/
theorem Drv.Accepted.respondAtOnce {d d' : Drv} (h : d.Accepted d') (hold : Bool) :
    ∀ e, e = d'.respondAtOnce hold → e.wire = d.wire ∧ e.stb = d.stb ∧ e.clk = d.clk ∧ e.dio = d.dio
      ∧ e.shadow = d.shadow ∧ e.settling = d.settling := by
  intro e he
  rw [Drv.respondAtOnce_keeps hold d' e he]
  exact ⟨h.wire, h.stb, h.clk, h.dio, h.shadow, h.settling⟩

/-- The sequencer leaves lines, `wire` and pending line writes, or performs the first of these. -/
theorem Drv.sequencer_wire (cfg : Config) (hold responding : Bool) (d : Drv) :
    ∀ e, e = d.sequencer cfg hold responding →
      (e.wire = d.wire ∧ e.stb = d.stb ∧ e.clk = d.clk ∧ e.dio = d.dio ∧ e.seq = d.seq)
      ∨ (d.busy = true ∧ ∃ w rest, d.seq = w :: rest
        ∧ e = { ({ d with seq := rest } : Drv).perform w with settle := cfg.settleTicks }) := by
  rintro e rfl
  rcases Drv.sequencer_cases cfg hold responding d with
    ⟨hd, -⟩ | ⟨-, -, hd⟩ | ⟨-, -, -, -, hd⟩ | ⟨-, -, -, -, -, hd⟩ | ⟨hb, -, -, -, w, rest, hseq, hd⟩ <;> rw [hd]
  · exact .inl ⟨rfl, rfl, rfl, rfl, rfl⟩
  · exact .inl ⟨rfl, rfl, rfl, rfl, rfl⟩
  · exact .inl ⟨rfl, rfl, rfl, rfl, rfl⟩
  · exact .inl ⟨rfl, rfl, rfl, rfl, rfl⟩
  · exact .inr ⟨hb, w, rest, hseq, rfl⟩

/-- Settles O36: of the things the sequencer can do only a line write performed touches lines and `wire`. -/
theorem wireGrowsInSequenceOrder : Obligations.WireGrowsInSequenceOrder := by
  intro s t hr h
  obtain ⟨-, ⟨hr', -⟩ | ⟨-, ha, drv, dec, -, hacc, -, rfl⟩ | ⟨-, -, rfl⟩⟩ := step_cases h
  · rw [hr] at hr'; cases hr'
  · obtain ⟨hwire, hstb, hclk, hdio, -, -⟩ := hacc.respondAtOnce s.inp.hold _ rfl
    exact .inl ⟨hwire, hstb, hclk, hdio, fun hn => absurd ha (ne_true_of_eq_false hn)⟩
  · rcases Drv.sequencer_wire s.cfg s.inp.hold s.drv.rspValid (s.drv.endPulse s.freeCount) _ rfl with
      ⟨hwire, hstb, hclk, hdio, hseq⟩ | ⟨hb, w, rest, hseq, hd⟩
    · exact .inl ⟨hwire, hstb, hclk, hdio, fun _ => hseq⟩
    · rw [State.idleEdge_drv, hd]
      exact .inr ⟨hb, w, rest, hseq, by simp⟩

/-! ## Ghost `shadow` (R93 to R96, R100) -/

/-- A frame's marks stand on its last line write. -/
theorem frame_eq_append (bytes : List Byte) (marks : List (Nat × SegCode)) :
    ∃ before, frame bytes marks = before ++ [⟨.stb, true, marks⟩] ∧ ∀ w ∈ before, w.marks = [] := by
  refine ⟨plainWrite .stb false :: bytes.flatMap sendByte, rfl, fun w hw => ?_⟩
  rcases List.mem_cons.mp hw with rfl | hw
  · rfl
  · obtain ⟨x, -, hx⟩ := List.mem_flatMap.mp hw
    obtain ⟨i, -, hi⟩ := List.mem_flatMap.mp hx
    simp only [sendBit, List.mem_cons, List.not_mem_nil, or_false] at hi
    rcases hi with rfl | rfl | rfl <;> rfl

/-- An exchange's marks stand on its last line write, split or not. -/
theorem exchange_eq_append (cfg : Config) (c : Byte) (rest : List Byte) (marks : List (Nat × SegCode)) :
    ∃ before, exchange cfg c rest marks = before ++ [⟨.stb, true, marks⟩] ∧ ∀ w ∈ before, w.marks = [] := by
  unfold exchange
  split
  · exact frame_eq_append [c] marks
  · split
    · obtain ⟨first, hfirst, hplain⟩ := frame_eq_append [c] []
      obtain ⟨before, hbefore, hplain'⟩ := frame_eq_append rest marks
      refine ⟨first ++ [⟨.stb, true, []⟩] ++ before, by rw [hfirst, hbefore, ← List.append_assoc], ?_⟩
      rw [List.forall_mem_append, List.forall_mem_append, List.forall_mem_singleton]
      exact ⟨⟨hplain, rfl⟩, hplain'⟩
    · exact frame_eq_append (c :: rest) marks

/-- After marks each position holds the last code marked for it. -/
theorem markShadow_getElem? (v : Vector (Option SegCode) 6) (marks : List (Nat × SegCode)) {p : Nat}
    (hp : p < maxDigits) :
    (markShadow v marks)[p]? = (((marks.filter (fun m => m.1 = p)).getLast?).map (fun m => some m.2)).or v[p]? := by
  induction marks using List.reverseRecOn with
  | nil => rfl
  | append_singleton marks m ih =>
    have hstep : markShadow v (marks ++ [m]) = (markShadow v marks).setIfInBounds m.1 (some m.2) := by
      rw [markShadow_append]; rfl
    rw [hstep, List.filter_append]
    by_cases hm : m.1 = p
    · subst hm
      rw [Vector.getElem?_setIfInBounds_self, if_pos hp]
      simp
    · rw [Vector.getElem?_setIfInBounds_ne hm, ih]
      simp [hm]

/-- Settles O57: `shadow` takes the marks that waited when the sequencer goes on, to the response or to the next line
write. -/
theorem shadowTakesFinishedExchanges : Obligations.ShadowTakesFinishedExchanges := by
  refine ⟨exchange_eq_append, fun s t hr h => ?_⟩
  have hmarked (p : Nat) (hp : p < maxDigits) : (markShadow s.drv.shadow s.drv.settling)[p]? =
      match (s.drv.settling.filter (fun m => m.1 = p)).getLast? with
      | some m => some (some m.2)
      | none => s.drv.shadow[p]? := by
    rw [markShadow_getElem? _ _ hp]
    cases (s.drv.settling.filter (fun m => m.1 = p)).getLast? <;> rfl
  obtain ⟨-, ⟨hr', -⟩ | ⟨-, -, drv, dec, -, hacc, -, rfl⟩ | ⟨-, -, rfl⟩⟩ := step_cases h
  · rw [hr] at hr'; cases hr'
  · obtain ⟨hwire, -, -, -, hshadow, hsettling⟩ := hacc.respondAtOnce s.inp.hold _ rfl
    exact .inl ⟨hshadow, hsettling, hwire⟩
  · rw [State.idleEdge_drv]
    rcases Drv.sequencer_cases s.cfg s.inp.hold s.drv.rspValid (s.drv.endPulse s.freeCount) with
      ⟨hd, -⟩ | ⟨-, -, hd⟩ | ⟨-, -, -, -, hd⟩ | ⟨hb, -, -, hs, hseq, hd⟩ | ⟨hb, -, -, hs, w, rest, hseq, hd⟩ <;> rw [hd]
    · exact .inl ⟨rfl, rfl, rfl⟩
    · exact .inl ⟨rfl, rfl, rfl⟩
    · exact .inl ⟨rfl, rfl, rfl⟩
    · refine .inr ⟨hb, hs, hmarked, fun _ => ⟨rfl, rfl⟩, fun w rest hq => ?_⟩
      cases hseq.symm.trans hq
    · refine .inr ⟨hb, hs, fun p hp => ?_, fun hq => ?_, fun w' rest' hq => ?_⟩
      · rw [Drv.perform_shadow]; exact hmarked p hp
      · cases hseq.symm.trans hq
      · obtain ⟨rfl, rfl⟩ := List.cons.inj (hseq.symm.trans hq)
        simp

/-! ## The settle delay (R89) -/

theorem run_succ_inv {s u : State} {k : Nat} (h : run (k + 1) s = .next u) :
    ∃ t, step s = .next t ∧ run k t = .next u := by
  rw [run] at h
  cases hs : step s with
  | next t => rw [hs] at h; exact ⟨t, rfl, h⟩
  | fault r => rw [hs] at h; cases h
  | refused r => rw [hs] at h; cases h

/-- A settle delay is running: `busy` with more than `k` edges to go, and no response pulsed. -/
structure Drv.Settling (d : Drv) (k : Nat) : Prop where
  busy : d.busy = true
  quiet : d.rspValid = false
  delay : k < d.settle

/-- While the delay runs, an edge takes at most one off it and leaves `wire` and `shadow`. -/
theorem Drv.Settling.step {s t : State} {k : Nat} (hd : s.drv.Settling (k + 1)) (hr : s.inp.rst = false)
    (h : step s = .next t) : t.drv.Settling k ∧ t.drv.wire = s.drv.wire ∧ t.drv.shadow = s.drv.shadow := by
  obtain ⟨hb, hv, hs⟩ := hd
  obtain rfl := step_busy h hr hb
  have hs' : (s.drv.endPulse s.freeCount).settle = s.drv.settle := rfl
  rw [State.idleEdge_drv]
  rcases Drv.sequencer_cases s.cfg s.inp.hold s.drv.rspValid (s.drv.endPulse s.freeCount) with
    ⟨hd, -⟩ | ⟨-, hv', -⟩ | ⟨-, -, -, -, hd⟩ | ⟨-, -, -, hle, -⟩ | ⟨-, -, -, hle, -⟩
  · rw [hd]
    exact ⟨⟨hb, rfl, Nat.lt_of_succ_lt hs⟩, rfl, rfl⟩
  · rw [hv] at hv'; cases hv'
  · rw [hd]
    exact ⟨⟨hb, rfl, Nat.lt_sub_of_add_lt hs⟩, rfl, rfl⟩
  · omega
  · omega

theorem Drv.Settling.run {s u : State} {k : Nat} (hd : s.drv.Settling k) (hr : s.NoReset) (h : run k s = .next u) :
    u.drv.wire = s.drv.wire ∧ u.drv.shadow = s.drv.shadow := by
  induction k generalizing s with
  | zero => obtain rfl := Host.Outcome.next.inj h; exact ⟨rfl, rfl⟩
  | succ k ih =>
    obtain ⟨t, hstep, hrun⟩ := run_succ_inv h
    obtain ⟨hd', hwire, hshadow⟩ := hd.step hr.1 hstep
    obtain ⟨uwire, ushadow⟩ := ih hd' (noReset_next hr hstep) hrun
    exact ⟨uwire.trans hwire, ushadow.trans hshadow⟩

/-- An edge that changes `wire` starts a settle delay. -/
theorem settling_of_wire_changed {s t : State} (hr : s.inp.rst = false) (h : step s = .next t)
    (hwire : t.drv.wire ≠ s.drv.wire) {k : Nat} (hk : k < s.cfg.settleTicks) : t.drv.Settling k := by
  obtain ⟨-, ⟨hr', -⟩ | ⟨-, -, drv, dec, -, hacc, -, rfl⟩ | ⟨-, -, rfl⟩⟩ := step_cases h
  · rw [hr] at hr'; cases hr'
  · obtain ⟨hsame, -⟩ := hacc.respondAtOnce s.inp.hold _ rfl
    exact absurd hsame hwire
  · rcases Drv.sequencer_wire s.cfg s.inp.hold s.drv.rspValid (s.drv.endPulse s.freeCount) _ rfl with
      ⟨hsame, -⟩ | ⟨hb, w, rest, -, hd⟩
    · exact absurd hsame hwire
    · rw [State.idleEdge_drv, hd]
      exact ⟨by simpa using hb, by simp, hk⟩

/-- Settles O37: the line write starts a settle delay of `SETTLE_TICKS`, during which `wire` and `shadow` stay. -/
theorem lineWritesKeepSettleDelay : Obligations.LineWritesKeepSettleDelay :=
  fun _ _ _ hr h hwire _ _ hk hrun => (settling_of_wire_changed hr.1 h hwire hk).run (noReset_next hr h) hrun

/-! ## The run to the response (R100, R148) -/

/-- With neither reset nor hold ahead, the next cycle has none either. -/
theorem undisturbed_next {s t : State} (h : undisturbed s) (hstep : step s = .next t) : undisturbed t := by
  obtain ⟨hi, hl, -⟩ := step_inputs hstep
  obtain ⟨-, -, hall⟩ := h
  unfold undisturbed
  rw [hi, hl, State.nextInp]
  cases hq : s.inputs with
  | nil => exact ⟨rfl, rfl, fun p hp => absurd hp List.not_mem_nil⟩
  | cons p ps =>
    rw [hq, List.forall_mem_cons] at hall
    exact ⟨hall.1.1, hall.1.2, hall.2⟩

/-- Two drivers that will have the same lines, `wire`, `shadow` and status when nothing is pending any more. -/
structure Drv.SameEnd (d e : Drv) : Prop where
  wire : e.drain.wire = d.drain.wire
  shadow : e.drain.shadow = d.drain.shadow
  stb : e.drain.stb = d.drain.stb
  clk : e.drain.clk = d.drain.clk
  dio : e.drain.dio = d.drain.dio
  status : e.seqStatus = d.seqStatus

theorem Drv.SameEnd.refl (d : Drv) : d.SameEnd d := ⟨rfl, rfl, rfl, rfl, rfl, rfl⟩

theorem Drv.SameEnd.trans {d e f : Drv} (h : d.SameEnd e) (h' : e.SameEnd f) : d.SameEnd f :=
  ⟨h'.wire.trans h.wire, h'.shadow.trans h.shadow, h'.stb.trans h.stb, h'.clk.trans h.clk, h'.dio.trans h.dio,
    h'.status.trans h.status⟩

/-- The settle counter and the response port have no part in the end. -/
theorem Drv.SameEnd.of_timing {d e : Drv}
    (h : e = { d with settle := e.settle, rspValid := e.rspValid, rspStatus := e.rspStatus }) : d.SameEnd e := by
  rw [h]
  refine ⟨?_, ?_, ?_, ?_, ?_, rfl⟩ <;> simp only [Drv.drain_eq]

/-- Performing the first pending line write leads to the same end. -/
theorem Drv.SameEnd.perform {d : Drv} {w : SeqWrite} {rest : List SeqWrite} (h : d.seq = w :: rest) (settle : Nat) :
    d.SameEnd { ({ d with seq := rest } : Drv).perform w with settle := settle } := by
  constructor <;> simp [Drv.drain_eq, h, levelAfter, markShadow_append]

/-- The edges still to come before the one that pulses the response. -/
def Drv.edgesLeft (cfg : Config) (d : Drv) : Nat := d.settle - 1 + d.seq.length * cfg.settleTicks

section Sequencer

variable {cfg : Config} {d : Drv} {n : Nat}

/-- While edges are left, the sequencer takes one off and works towards the same end. -/
theorem Drv.sequencer_progress (hb : d.busy = true) (hticks : 1 ≤ cfg.settleTicks) (hn : d.edgesLeft cfg = n + 1) :
    ∀ e, e = d.sequencer cfg false false →
      e.busy = true ∧ e.rspValid = d.rspValid ∧ e.edgesLeft cfg = n ∧ d.SameEnd e := by
  rintro e rfl
  unfold Drv.edgesLeft at hn ⊢
  rcases Drv.sequencer_cases cfg false false d with
    ⟨-, hidle⟩ | ⟨-, hr, -⟩ | ⟨-, -, -, hs, hd⟩ | ⟨-, -, -, hs, hseq, -⟩ | ⟨-, -, -, hs, w, rest, hseq, hd⟩
  · cases (hidle hb).2
  · cases hr
  · rw [hd]
    refine ⟨hb, rfl, ?_, ?_⟩
    · show d.settle - 1 - 1 + d.seq.length * cfg.settleTicks = n
      omega
    · exact .of_timing rfl
  · rw [hseq, List.length_nil] at hn
    omega
  · rw [hd]
    rw [hseq, List.length_cons, Nat.succ_mul] at hn
    refine ⟨by simpa using hb, by simp, ?_, ?_⟩
    · simp only [Drv.perform_seq]
      omega
    · exact .perform hseq cfg.settleTicks

/-- When no edge is left, the sequencer pulses the response. -/
theorem Drv.sequencer_respond (hb : d.busy = true) (hticks : 1 ≤ cfg.settleTicks) (hn : d.edgesLeft cfg = 0) :
    d.seq = [] ∧ d.sequencer cfg false false = d.finishExchange.pulse := by
  unfold Drv.edgesLeft at hn
  rcases Drv.sequencer_cases cfg false false d with
    ⟨-, hidle⟩ | ⟨-, hr, -⟩ | ⟨-, -, -, hs, -⟩ | ⟨-, -, -, -, hseq, hd⟩ | ⟨-, -, -, -, w, rest, hseq, -⟩
  · cases (hidle hb).2
  · cases hr
  · omega
  · exact ⟨hseq, hd⟩
  · rw [hseq, List.length_cons, Nat.succ_mul] at hn
    omega

end Sequencer

/-- An undisturbed block in progress, `n` edges before the one that pulses the response. -/
structure State.InProgress (s : State) (n : Nat) : Prop where
  wf : s.cfg.wf = true
  undisturbed : undisturbed s
  busy : s.drv.busy = true
  quiet : s.drv.rspValid = false
  left : s.drv.edgesLeft s.cfg = n

/-- The driver at an undisturbed edge in progress. -/
theorem State.InProgress.step_drv {s t : State} {n : Nat} (hs : s.InProgress n) (h : step s = .next t) :
    t.drv = (s.drv.endPulse s.freeCount).sequencer s.cfg false false := by
  obtain ⟨hr, hhold, -⟩ := hs.undisturbed
  rw [step_busy h hr hs.busy, State.idleEdge_drv, hhold, hs.quiet]

theorem State.InProgress.step {s : State} {n : Nat} (hs : s.InProgress (n + 1)) :
    ∃ t, step s = .next t ∧ t.InProgress n ∧ s.drv.SameEnd t.drv := by
  obtain ⟨t, ht⟩ := step_next s hs.wf
  have hcfg := step_cfg ht
  obtain ⟨hticks, -⟩ := Config.wf_counters hs.wf
  obtain ⟨tbusy, tquiet, tleft, tend⟩ := Drv.sequencer_progress (n := n) (cfg := s.cfg)
    (d := s.drv.endPulse s.freeCount) hs.busy hticks hs.left _ rfl
  rw [← hs.step_drv ht] at tbusy tquiet tleft tend
  have hend : s.drv.SameEnd (s.drv.endPulse s.freeCount) := .of_timing rfl
  exact ⟨t, ht, ⟨hcfg ▸ hs.wf, undisturbed_next hs.undisturbed ht, tbusy, tquiet, hcfg ▸ tleft⟩, hend.trans tend⟩

theorem State.InProgress.run {s : State} {k n : Nat} (hs : s.InProgress (n + k)) :
    ∃ t, run k s = .next t ∧ t.InProgress n ∧ s.drv.SameEnd t.drv := by
  induction k generalizing s with
  | zero => exact ⟨s, rfl, hs, .refl _⟩
  | succ k ih =>
    obtain ⟨t, hstep, ht, hend⟩ := State.InProgress.step (n := n + k) hs
    obtain ⟨u, hrun, hu, hend'⟩ := ih ht
    exact ⟨u, by rw [run_succ k hstep, hrun], hu, hend.trans hend'⟩

/-- The edge at which no edge is left pulses the response, everything pending being done. -/
theorem State.InProgress.respond {s : State} (hs : s.InProgress 0) :
    ∃ t, Machine.step s = .next t ∧ t.cfg = s.cfg ∧ t.drv.busy = true ∧ t.drv.rspValid = true ∧ t.drv.seq = []
      ∧ t.drv.rspStatus = s.drv.seqStatus.code ∧ t.drv.wire = s.drv.drain.wire ∧ t.drv.shadow = s.drv.drain.shadow
      ∧ t.drv.stb = s.drv.drain.stb ∧ t.drv.clk = s.drv.drain.clk ∧ t.drv.dio = s.drv.drain.dio := by
  obtain ⟨t, ht⟩ := step_next s hs.wf
  obtain ⟨hticks, -⟩ := Config.wf_counters hs.wf
  obtain ⟨hseq, hd⟩ := Drv.sequencer_respond (d := s.drv.endPulse s.freeCount) hs.busy hticks hs.left
  have hseq : s.drv.seq = [] := hseq
  refine ⟨t, ht, step_cfg ht, ?_⟩
  rw [hs.step_drv ht, hd]
  simp [Drv.drain_eq, hseq, levelAfter, hs.busy]

/-- The edge after the response ends the busy cycle (R25, R100). -/
theorem step_after_response {s t : State} (hr : s.inp.rst = false) (hb : s.drv.busy = true)
    (hv : s.drv.rspValid = true) (h : step s = .next t) :
    t.drv.busy = false ∧ t.drv.rspValid = false ∧ t.drv.wire = s.drv.wire := by
  obtain rfl := step_busy h hr hb
  have hd : (s.drv.endPulse s.freeCount).sequencer s.cfg s.inp.hold true
      = { s.drv.endPulse s.freeCount with busy := false } := by
    simp [Drv.sequencer, hb]
  rw [State.idleEdge_drv, hv, hd]
  exact ⟨rfl, rfl, rfl⟩

/-- Settles O38: one edge is taken off at a time until the response is pulsed. -/
theorem sequencerRunsToResponse : Obligations.SequencerRunsToResponse := by
  intro s hwf hu hb hv hsettle
  have hs : s.InProgress (s.drv.seq.length * s.cfg.settleTicks) :=
    ⟨hwf, hu, hb, hv, by rw [Drv.edgesLeft, hsettle]; omega⟩
  generalize hn : s.drv.seq.length * s.cfg.settleTicks = n at hs ⊢
  refine ⟨fun k u hk hrun => ?_, ?_⟩
  · obtain ⟨t, ht, htp, -⟩ := State.InProgress.run (k := k) (n := n - k) (by rwa [Nat.sub_add_cancel hk])
    obtain rfl := Host.Outcome.next.inj (hrun.symm.trans ht)
    exact htp.quiet
  · obtain ⟨r, hrun, hr, hend⟩ := State.InProgress.run (k := n) (n := 0) (by rwa [Nat.zero_add])
    obtain ⟨t, ht, hcfg, tbusy, tvalid, tseq, tstatus, twire, tshadow, tstb, tclk, tdio⟩ := hr.respond
    obtain ⟨u, hu'⟩ := step_next t (hcfg ▸ hr.wf)
    obtain ⟨ubusy, uvalid, uwire⟩ :=
      step_after_response (undisturbed_next hr.undisturbed ht).1 tbusy tvalid hu'
    have hwire : s.drv.drain.wire = s.drv.wire ++ s.drv.seq.map SeqWrite.entry := by rw [Drv.drain_eq]
    exact ⟨t, by rw [run_add n 1 hrun, run_succ 0 ht]; rfl, tvalid, by rw [tstatus, hend.status], tbusy, tseq,
      by rw [twire, hend.wire, hwire], by rw [tshadow, hend.shadow], by rw [tstb, hend.stb], by rw [tclk, hend.clk],
      by rw [tdio, hend.dio], u, hu', ubusy, uvalid, uwire⟩

/-- Settles O39: with nothing pending and no hold the accepting edge raises the pulse. -/
theorem noWriteCommandRespondsNextCycle : Obligations.NoWriteCommandRespondsNextCycle := by
  intro s t hwf ha hhold hword hseq
  obtain ⟨drv, dec, hword', hacc, -⟩ := acceptWord_accepted s.inp.cmd s.endPulses
  obtain rfl := Host.Outcome.next.inj (hword.symm.trans hword')
  have hstep := step_accept hwf ha hword
  have hpulse : drv.respondAtOnce s.inp.hold = drv.pulse := by
    have hseq : drv.seq = [] := hseq
    simp [Drv.respondAtOnce, hseq, hhold]
  simp only at hstep
  rw [hpulse] at hstep
  refine ⟨_, hstep, hacc.busy, rfl, rfl, fun hr => ?_⟩
  obtain ⟨v, hv⟩ := step_next _ ((step_cfg hstep).symm ▸ hwf)
  obtain ⟨vbusy, vvalid, -⟩ := step_after_response hr hacc.busy rfl hv
  exact ⟨v, hv, vbusy, vvalid⟩

/-- Settles O55: the ports by `State.outputs`; the cycle of a response is busy by the invariant, and the edge after
it, reset or not, ends it. -/
theorem outputPorts : Obligations.OutputPorts := by
  refine ⟨fun _ => rfl, fun s t hinv h hv => ?_⟩
  obtain ⟨⟨-, -, -, hresp, -⟩, -⟩ := hinv
  obtain ⟨hb, -⟩ := hresp hv
  have hidle : t.drv.busy = false ∧ t.drv.rspValid = false := by
    cases hr : s.inp.rst with
    | false =>
      obtain ⟨tbusy, tvalid, -⟩ := step_after_response hr hb hv h
      exact ⟨tbusy, tvalid⟩
    | true =>
      obtain rfl := step_reset_inv h hr
      exact ⟨rfl, rfl⟩
  obtain ⟨tbusy, tvalid⟩ := hidle
  exact ⟨hb, tvalid, tbusy, by simp [State.outputs, State.cmdReady, tbusy]⟩

end Sys2Proof.Machine
end

section
/-! PROOFS. What an edge does not depend on and does not write: the command port of a busy block (R25, R62), driver
and decoder of each other (R66), and the registers that only commands write (R19 to R25, R31, R32). -/

namespace Sys2Proof.Machine

/-! ## The two edges without reset -/

section Edges

variable {s t : State}

theorem step_accept_inv (h : step s = .next t) (ha : s.accepts = true) :
    ∃ e, acceptWord s.inp.cmd s.endPulses = .next e ∧ (s.drv.endPulse s.freeCount).Accepted e.drv
      ∧ t = s.finishEdge (e.withDrv (e.drv.respondAtOnce s.inp.hold)) := by
  obtain ⟨hwf, -⟩ := step_cases h
  obtain ⟨drv, dec, hword, hacc, -⟩ := acceptWord_accepted s.inp.cmd s.endPulses
  exact ⟨_, hword, hacc, Host.Outcome.next.inj (h.symm.trans (step_accept hwf ha hword))⟩

theorem step_idle (h : step s = .next t) (hr : s.inp.rst = false) (ha : s.accepts = false) : t = s.idleEdge := by
  obtain ⟨-, ⟨hr', -⟩ | ⟨-, ha', -⟩ | ⟨-, -, rfl⟩⟩ := step_cases h
  · rw [hr] at hr'; cases hr'
  · rw [ha] at ha'; cases ha'
  · rfl

end Edges

/-! ## The command port of a busy block -/

/-- Settles O35: reset does not read the port, and any other edge of a busy block is `State.idleEdge`. -/
theorem busyBlockIgnoresCommandPort : Obligations.BusyBlockIgnoresCommandPort := by
  intro s t t' valid w hb h h'
  cases hr : s.inp.rst with
  | true =>
    obtain rfl := step_reset_inv h hr
    obtain rfl := step_reset_inv h' hr
    exact ⟨rfl, rfl⟩
  | false =>
    obtain rfl := step_busy h hr hb
    obtain rfl := step_busy h' hr hb
    exact ⟨rfl, rfl⟩

/-! ## Driver and decoder (R66) -/

/-- What a command does to the driver depends on driver and configuration alone. -/
theorem exec_drv_congr {i : Instr} {s s' t t' : State} (hdrv : s'.drv = s.drv) (hcfg : s'.cfg = s.cfg)
    (h : exec i s = .next t) (h' : exec i s' = .next t') : t'.drv = t.drv := by
  cases i <;> obtain rfl := Host.Outcome.next.inj h <;> obtain rfl := Host.Outcome.next.inj h' <;>
    simp only [State.withDrv_drv, hdrv, hcfg]

theorem acceptWord_drv_congr {w : Word} {s s' t t' : State} (hdrv : s'.drv = s.drv) (hcfg : s'.cfg = s.cfg)
    (h : acceptWord w s = .next t) (h' : acceptWord w s' = .next t') : t'.drv = t.drv := by
  cases hdec : decode w with
  | ok i =>
    rw [acceptWord, hdec] at h h'
    exact exec_drv_congr hdrv hcfg h h'
  | error e =>
    rw [acceptWord_of_decode_error hdec] at h h'
    obtain rfl := Host.Outcome.next.inj h
    obtain rfl := Host.Outcome.next.inj h'
    simp only [State.withDrv_drv, hdrv]

theorem State.commandNow_eq_some {s : State} {i : Instr} (h : s.commandNow = some i) :
    decode s.inp.cmd = .ok i := by
  unfold State.commandNow at h
  split at h
  · exact commandOf_eq_some.mp h
  · cases h

/-- A command that is none of the decoder's four leaves the decoder as it is. -/
theorem Dec.Commanded.eq_self {d d' : Dec} {c : Option Instr} (h : d.Commanded c d')
    (hc : ∀ i, c = some i → (∀ token, i ≠ .onturn token ∧ i ≠ .onpress token) ∧ i ≠ .tret ∧ i ≠ .pret) : d' = d := by
  cases h with
  | none => rfl
  | bindTurn token =>
    obtain ⟨hbind, -⟩ := hc _ rfl
    obtain ⟨hne, -⟩ := hbind token
    exact absurd rfl hne
  | bindPress token =>
    obtain ⟨hbind, -⟩ := hc _ rfl
    obtain ⟨-, hne⟩ := hbind token
    exact absurd rfl hne
  | returnTurn =>
    obtain ⟨-, hne, -⟩ := hc _ rfl
    exact absurd rfl hne
  | returnPress =>
    obtain ⟨-, -, hne⟩ := hc _ rfl
    exact absurd rfl hne

/-- Without a decoder command on the port an edge takes the decoder on from its own state and the input lines. -/
theorem step_decoder_alone {s t : State} (h : step s = .next t) (hr : s.inp.rst = false)
    (hcmd : ∀ i, decode s.inp.cmd = .ok i →
      (∀ token, i ≠ .onturn token ∧ i ≠ .onpress token) ∧ i ≠ .tret ∧ i ≠ .pret) :
    t.dec = s.decoderEdge (s.dec.endPulses s.freeCount) := by
  obtain ⟨d, hd, hdec⟩ := step_decoder h hr
  rw [hdec, hd.eq_self fun i hi => hcmd i (State.commandNow_eq_some hi)]

/-- Settles O40: the driver's part of each edge names nothing of the decoder, and `State.decoderEdge` nothing of the
driver. -/
theorem driverAndDecoderShareNothing : Obligations.DriverAndDecoderShareNothing := by
  refine ⟨fun s t t' dec a b sw later h h' => ?_, fun s t t' drv h h' hcmd => ?_⟩
  · cases hr : s.inp.rst with
    | true =>
      obtain rfl := step_reset_inv h hr
      obtain rfl := step_reset_inv h' hr
      rfl
    | false =>
      cases ha : s.accepts with
      | true =>
        obtain ⟨e, he, -, rfl⟩ := step_accept_inv h ha
        obtain ⟨e', he', -, rfl⟩ := step_accept_inv h' ha
        have hdrv : e'.drv = e.drv := by apply acceptWord_drv_congr _ _ he he' <;> rfl
        exact congrArg (Drv.respondAtOnce s.inp.hold) hdrv
      | false =>
        obtain rfl := step_idle h hr ha
        obtain rfl := step_idle h' hr ha
        rfl
  · cases hr : s.inp.rst with
    | true =>
      obtain rfl := step_reset_inv h hr
      obtain rfl := step_reset_inv h' hr
      rfl
    | false =>
      rw [step_decoder_alone h hr hcmd, step_decoder_alone h' hr hcmd]
      rfl

/-! ## The registers of the commands -/

/-- `busy` falls in the cycle of the response alone (R25, R100). -/
theorem Drv.sequencer_busy (cfg : Config) (hold responding : Bool) (d : Drv) :
    (d.sequencer cfg hold responding).busy = (d.busy && !responding) := by
  rcases Drv.sequencer_cases cfg hold responding d with
    ⟨hd, hidle⟩ | ⟨-, hr, hd⟩ | ⟨hb, hr, -, -, hd⟩ | ⟨hb, hr, -, -, -, hd⟩ | ⟨hb, hr, -, -, w, rest, -, hd⟩ <;> rw [hd]
  · cases hb : d.busy with
    | false => rfl
    | true =>
      obtain ⟨hr, -⟩ := hidle hb
      rw [hr]
      rfl
  · simp [hr]
  · simp [hb, hr]
  · simp [hb, hr]
  · simp [hb, hr]

theorem sameCommandRegisters_idleEdge (s : State) : sameCommandRegisters s s.idleEdge := by
  obtain ⟨hconf, hcount, hactive, hint, hmode, htext, hst⟩ :=
    Drv.sequencer_keeps s.cfg s.inp.hold s.drv.rspValid (s.drv.endPulse s.freeCount) _ rfl
  obtain ⟨hturn, htoken, hpress, hptoken, -⟩ := s.decoderEdge_keeps (s.dec.endPulses s.freeCount) _ rfl
  exact ⟨hconf, hcount, hactive, hint, hmode, htext, hst, hturn, htoken, hpress, hptoken, rfl⟩

/-- The end of an accepting edge keeps the registers of the commands and all that the word has left. -/
theorem finishEdge_accepted (s e : State) (hold : Bool) :
    ∀ t, t = s.finishEdge (e.withDrv (e.drv.respondAtOnce hold)) → sameCommandRegisters e t
      ∧ t.drv.busy = e.drv.busy ∧ t.drv.seq = e.drv.seq ∧ t.drv.wire = e.drv.wire ∧ t.drv.stb = e.drv.stb
      ∧ t.drv.clk = e.drv.clk ∧ t.drv.dio = e.drv.dio ∧ t.drv.shadow = e.drv.shadow
      ∧ t.drv.settling = e.drv.settling := by
  rintro t rfl
  obtain ⟨hturn, htoken, hpress, hptoken, -⟩ := s.decoderEdge_keeps e.dec _ rfl
  rw [Drv.respondAtOnce_keeps hold e.drv _ rfl]
  exact ⟨⟨rfl, rfl, rfl, rfl, rfl, rfl, rfl, hturn, htoken, hpress, hptoken, rfl⟩, rfl, rfl, rfl, rfl, rfl, rfl, rfl,
    rfl⟩

/-- Settles O54: without an accepted word the edge is `State.idleEdge`, with one it is the word and then
`State.finishEdge`. -/
theorem edgesKeepCommandRegisters : Obligations.EdgesKeepCommandRegisters := by
  intro s t hr h
  refine ⟨fun ha => ?_, rfl, fun ha => ?_⟩
  · obtain rfl := step_idle h hr ha
    have hbusy : s.idleEdge.drv.busy = (s.drv.busy && !s.drv.rspValid) := Drv.sequencer_busy _ _ _ _
    exact ⟨sameCommandRegisters_idleEdge s, fun hb => by rw [hbusy, hb]; rfl, fun hb => by rw [hbusy, hb]; rfl⟩
  · obtain ⟨e, he, -, ht⟩ := step_accept_inv h ha
    exact ⟨e, he, finishEdge_accepted s e s.inp.hold t ht⟩

end Sys2Proof.Machine
end
